-- ==== Sys2Proof/Word.lean ====
section
/-! DEFINITION. The widths of the block's values (spec/00_scope.md R5). -/

namespace Sys2Proof

/-- One byte lane of the bus. -/
abbrev Byte := BitVec 8

/-- One 16-bit physical value of the bus (20_memory.md R80). -/
abbrev Word := BitVec 16

/-- A long value or a 32-bit byte address (20_memory.md R80, R93). -/
abbrev Long := BitVec 32

/-- A 64-bit operation word (30_encoding.md R120). -/
abbrev OpWord := BitVec 64

end Sys2Proof
end

