-- ==== Sys2Proof/Syntax.lean ====
section
/-! DEFINITION. The syntax of the block's operations: the operand types and `Instr`, one constructor per row of
spec/opcode_table.json (30_encoding.md R120 to R126, R133). -/

namespace Sys2Proof

/-- The initiator of a bus transaction: field `init` of format B (00_scope.md R8, 30_encoding.md R121). -/
inductive Initiator where
  | h | m | s | dreq
deriving DecidableEq, Repr, Inhabited

/-- The agents that can hold the token: field `thr` of format I (10_state.md R21, 30_encoding.md R123). -/
inductive Agent where
  | h | m | s | a
deriving DecidableEq, Repr, Inhabited

/-- The two cores, master and slave (10_state.md R20). -/
inductive CoreId where
  | m | s
deriving DecidableEq, Repr, Inhabited

/-- The five interrupt sources (10_state.md R29), numbered as 30_encoding.md R125 numbers them. -/
inductive Source where
  | pwm | cmd | hint | vint | vres
deriving DecidableEq, Repr, Inhabited

/-- The two audio channels (44_pwm.md). -/
inductive Channel where
  | l | r
deriving DecidableEq, Repr, Inhabited

/-- The direction of a bus transaction: field `rw` of format B (30_encoding.md R121). -/
inductive Dir where
  | read | write
deriving DecidableEq, Repr, Inhabited

/-- The legal lane selections `(u, l)` (20_memory.md R91): `word` is (1, 1), `upper` (1, 0), `lower` (0, 1).
The illegal (0, 0) is not a value of this type: it is the operation `Instr.busNoLane`. -/
inductive Lanes where
  | word | upper | lower
deriving DecidableEq, Repr, Inhabited

/-- The 31 control registers (10_state.md R50 to R71). -/
inductive Reg where
  | irqen | irqstat | irqack | adapter | hperiod | hcounter | cmdreq
  | mbox (i : Fin 8)
  | pwmctl | pwmcyc | pwml | pwmr | dreqctl | dreqsrch | dreqsrcl | dreqdsth | dreqdstl | dreqlen
  | vdpmode | vdpshift | aflen | afaddr | afdata | fbctl
deriving DecidableEq, Repr

/-- The operations of the block, one constructor per row of spec/opcode_table.json, in the table's order.
Rows of level `generic` are the transactions of 30_encoding.md R126; rows of level `target` name the register or the
window such a transaction reaches (R133); then the host events (R124) and the internal steps (R125).
`off` is the byte offset in a window, bit 0 included (it is ignored, 20_memory.md R92). -/
inductive Instr where
  -- level generic
  | rd16 (i : Initiator) (a : Long)
  | rd8u (i : Initiator) (a : Long)
  | rd8l (i : Initiator) (a : Long)
  | wr16 (i : Initiator) (a : Long) (d : Word)
  | wr8u (i : Initiator) (a : Long) (d : Word)
  | wr8l (i : Initiator) (a : Long) (d : Word)
  | busNoLane (i : Initiator) (rw : Dir) (a : Long) (d : Word)
  -- level target: the registers
  | irqenRd (i : Initiator) (l : Lanes)
  | irqenWr (i : Initiator) (l : Lanes) (d : Word)
  | irqstatRd (i : Initiator) (l : Lanes)
  | irqstatWr (i : Initiator) (l : Lanes) (d : Word)
  | irqackRd (i : Initiator) (l : Lanes)
  | irqackWr (i : Initiator) (l : Lanes) (d : Word)
  | adapterRd (i : Initiator) (l : Lanes)
  | adapterWr (i : Initiator) (l : Lanes) (d : Word)
  | hperiodRd (i : Initiator) (l : Lanes)
  | hperiodWr (i : Initiator) (l : Lanes) (d : Word)
  | hcounterRd (i : Initiator) (l : Lanes)
  | hcounterWr (i : Initiator) (l : Lanes) (d : Word)
  | cmdreqRd (i : Initiator) (l : Lanes)
  | cmdreqWr (i : Initiator) (l : Lanes) (d : Word)
  | mbox0Rd (i : Initiator) (l : Lanes)
  | mbox0Wr (i : Initiator) (l : Lanes) (d : Word)
  | mbox1Rd (i : Initiator) (l : Lanes)
  | mbox1Wr (i : Initiator) (l : Lanes) (d : Word)
  | mbox2Rd (i : Initiator) (l : Lanes)
  | mbox2Wr (i : Initiator) (l : Lanes) (d : Word)
  | mbox3Rd (i : Initiator) (l : Lanes)
  | mbox3Wr (i : Initiator) (l : Lanes) (d : Word)
  | mbox4Rd (i : Initiator) (l : Lanes)
  | mbox4Wr (i : Initiator) (l : Lanes) (d : Word)
  | mbox5Rd (i : Initiator) (l : Lanes)
  | mbox5Wr (i : Initiator) (l : Lanes) (d : Word)
  | mbox6Rd (i : Initiator) (l : Lanes)
  | mbox6Wr (i : Initiator) (l : Lanes) (d : Word)
  | mbox7Rd (i : Initiator) (l : Lanes)
  | mbox7Wr (i : Initiator) (l : Lanes) (d : Word)
  | pwmctlRd (i : Initiator) (l : Lanes)
  | pwmctlWr (i : Initiator) (l : Lanes) (d : Word)
  | pwmcycRd (i : Initiator) (l : Lanes)
  | pwmcycWr (i : Initiator) (l : Lanes) (d : Word)
  | pwmlRd (i : Initiator) (l : Lanes)
  | pwmlWr (i : Initiator) (l : Lanes) (d : Word)
  | pwmrRd (i : Initiator) (l : Lanes)
  | pwmrWr (i : Initiator) (l : Lanes) (d : Word)
  | dreqctlRd (i : Initiator) (l : Lanes)
  | dreqctlWr (i : Initiator) (l : Lanes) (d : Word)
  | dreqsrchRd (i : Initiator) (l : Lanes)
  | dreqsrchWr (i : Initiator) (l : Lanes) (d : Word)
  | dreqsrclRd (i : Initiator) (l : Lanes)
  | dreqsrclWr (i : Initiator) (l : Lanes) (d : Word)
  | dreqdsthRd (i : Initiator) (l : Lanes)
  | dreqdsthWr (i : Initiator) (l : Lanes) (d : Word)
  | dreqdstlRd (i : Initiator) (l : Lanes)
  | dreqdstlWr (i : Initiator) (l : Lanes) (d : Word)
  | dreqlenRd (i : Initiator) (l : Lanes)
  | dreqlenWr (i : Initiator) (l : Lanes) (d : Word)
  | vdpmodeRd (i : Initiator) (l : Lanes)
  | vdpmodeWr (i : Initiator) (l : Lanes) (d : Word)
  | vdpshiftRd (i : Initiator) (l : Lanes)
  | vdpshiftWr (i : Initiator) (l : Lanes) (d : Word)
  | aflenRd (i : Initiator) (l : Lanes)
  | aflenWr (i : Initiator) (l : Lanes) (d : Word)
  | afaddrRd (i : Initiator) (l : Lanes)
  | afaddrWr (i : Initiator) (l : Lanes) (d : Word)
  | afdataRd (i : Initiator) (l : Lanes)
  | afdataWr (i : Initiator) (l : Lanes) (d : Word)
  | fbctlRd (i : Initiator) (l : Lanes)
  | fbctlWr (i : Initiator) (l : Lanes) (d : Word)
  -- level target: the windows
  | bootromRd (c : CoreId) (l : Lanes) (off : BitVec 14)
  | paletteRd (i : Initiator) (l : Lanes) (off : BitVec 9)
  | vramRd (i : Initiator) (l : Lanes) (off : BitVec 17)
  | sdramLoRd (i : Initiator) (l : Lanes) (off : BitVec 17)
  | sdramHiRd (i : Initiator) (l : Lanes) (off : BitVec 17)
  | reservedRd (i : Initiator) (l : Lanes) (off : BitVec 10)
  | externalRd (i : Initiator) (l : Lanes) (a : Long)
  | bootromWr (c : CoreId) (l : Lanes) (off : BitVec 14) (d : Word)
  | paletteWr (i : Initiator) (l : Lanes) (off : BitVec 9) (d : Word)
  | vramWr (i : Initiator) (l : Lanes) (off : BitVec 17) (d : Word)
  | sdramLoWr (i : Initiator) (l : Lanes) (off : BitVec 17) (d : Word)
  | sdramHiWr (i : Initiator) (l : Lanes) (off : BitVec 17) (d : Word)
  | reservedWr (i : Initiator) (l : Lanes) (off : BitVec 10) (d : Word)
  | externalWr (i : Initiator) (l : Lanes) (a : Long) (d : Word)
  -- level event
  | power (reset : Bool)
  | restart
  | unload
  | vblank (level : Bool)
  | hblank (level : Bool)
  | scanline (y : BitVec 9)
  | hostAdvance (n : BitVec 32)
  | hostSync
  -- level internal
  | coreStepM
  | coreStepS
  | syncResolve (thr : Agent)
  | audioStep
  | pwmTimerStep
  | sampleTick
  | fifoWrite (thr : Agent) (ch : Channel) (sample : BitVec 12)
  | fifoRead (ch : Channel)
  | fifoDrain (ch : Channel)
  | dreqStep
  | autofillStep
  | irqRaise (thr : Agent) (c : CoreId) (src : Source)
  | irqQueryM
  | irqQueryS
  | irqDispatchM (src : Source)
  | irqDispatchS (src : Source)
  | latchCommit
  | fbCommit (thr : Agent)
  | selectFb (thr : Agent) (bank : Bool)
deriving DecidableEq, Repr

/-- The core an initiator is, if it is one (20_memory.md R83). -/
def Initiator.core? : Initiator → Option CoreId
  | .m => some .m
  | .s => some .s
  | .h => none
  | .dreq => none

/-- The initiator a core is (42_interrupt.md R222). -/
def CoreId.init : CoreId → Initiator
  | .m => .m
  | .s => .s

/-- The agent a core is (10_state.md R20). -/
def CoreId.agent : CoreId → Agent
  | .m => .m
  | .s => .s

/-- `other(M) = S` and `other(S) = M` (10_state.md R20). -/
def CoreId.other : CoreId → CoreId
  | .m => .s
  | .s => .m

/-- The upper lane is selected (20_memory.md R91). -/
def Lanes.u : Lanes → Bool
  | .word => true
  | .upper => true
  | .lower => false

/-- The lower lane is selected (20_memory.md R91). -/
def Lanes.l : Lanes → Bool
  | .word => true
  | .upper => false
  | .lower => true

end Sys2Proof
end

