-- ==== Sys2Proof/Config.lean ====
section
/-! DEFINITION. The parameters of 00_scope.md R4. An OPEN parameter is an opaque constant without a body: nothing can
be proved of its value, so a statement holds for every value. A parameter with a default is the default (log entry 13).
The interface of the opaque core engine (40_scheduler.md R150) and of the external space (20_memory.md R88) stand here
too. -/

namespace Sys2Proof

/-- The registers of a core (10_state.md R26, R27): the program counter, and everything else the engine keeps, as a
list of 32-bit words the block never looks into. DESIGN CHOICE (log entry 6), safe: any engine's registers can be
coded in such a list. -/
structure CoreRegs where
  pc : Long
  rest : List Long
deriving DecidableEq, Repr, Inhabited

/-- The width of an access made through `MemRead` or `MemWrite` (41_bus.md R196). -/
inductive Size where
  | byte | word | long
deriving DecidableEq, Repr, Inhabited

/-- The execution of one instruction by the engine, as the block sees it: a finite sequence of calls of the bus port,
each continuing with what the call returned (data and wait), and at the end the core's new registers and the cycles
`n0 = extra + 1` of the instruction (40_scheduler.md R150: `n0 >= 1`). -/
inductive CoreProgram where
  | done (regs : CoreRegs) (extra : Nat)
  | read (a : Long) (n : Size) (k : Long → Nat → CoreProgram)
  | write (a : Long) (n : Size) (v : Long) (k : Nat → CoreProgram)
deriving Inhabited

/-- One entry of `extLog`: a transaction passed to the external space (10_state.md R49). -/
structure ExtEntry where
  rw : Dir
  lanes : Lanes
  addr : Long
  data : Word
deriving DecidableEq, Repr

/-- The state of a DC-removal filter: the configuration type `FilterState` (P25, 10_state.md R43). DESIGN CHOICE (log
entry 14), safe: any filter's state can be coded in a list of 32-bit words. -/
abbrev FilterState := List (BitVec 32)

/-- A DC-removal filter: `FILTER_INIT` and the total function `DcFilter` (P25, 44_pwm.md R306). -/
structure DcFilter where
  init : FilterState
  apply : FilterState → BitVec 12 → FilterState × BitVec 16

namespace Config

/-- P13 `CLK_BITS`: the width of each local cycle counter. -/
abbrev clkBits : Nat := 64

/-- P29 `AFLEN_BITS`: the width of `autofillLength`. -/
abbrev aflenBits : Nat := 8

/-- P30 `ROMBANK_BITS`: the width of the ROM bank select. -/
abbrev romBankBits : Nat := 2

end Config

/-- What the external collaborator sees of the block beside the transactions (46_io_mailbox.md R344). -/
structure ExtView where
  adapterEnable : Bool
  cartridgeMode : Bool
  romBank : BitVec Config.romBankBits
deriving DecidableEq, Repr

namespace Config

/-! ### OPEN parameters -/

/-- P15 `CFG_MIN_SH2[c]`: any 32-bit value, 0 included (93_implementation_defined.md U4). -/
opaque cfgMinSh2 : CoreId → BitVec 32

/-- P15 `CFG_MIN_M68K[c]`. -/
opaque cfgMinM68k : CoreId → BitVec 32

/-- P17 `FB_WAIT`: any natural number (93_implementation_defined.md U3). -/
opaque fbWait : Nat

/-- P18 `BOOTIMG[c]`: the word at a word index of core `c`'s boot ROM. -/
opaque bootImage : CoreId → Nat → Word

/-- P28 `Ext.read`: the answer of the external space, given what the collaborator sees, the log with this read
appended, the lanes and the address (20_memory.md R88; 93_implementation_defined.md U2). -/
opaque extRead : ExtView → List ExtEntry → Lanes → Long → Word

/-- P27 `Reset` of `CoreEngine`, less the program counter, which equals the argument (40_scheduler.md R150). -/
opaque engineReset : Long → List Long

/-- P27 `Accepts` of `CoreEngine`: the core would take an interrupt of this level (0 to 15). -/
opaque engineAccepts : CoreRegs → BitVec 4 → Bool

/-- P27 `Enter` of `CoreEngine`, less the program counter, which equals the vector value: the other registers after
entry for (source, level, vector number, vector value). -/
opaque engineEnter : CoreRegs → Source → BitVec 4 → Nat → Long → List Long

/-- P27 `Exec` of `CoreEngine`: the instruction the registers select. -/
opaque engineExec : CoreRegs → CoreProgram

/-- P25 `DcFilter`, `FilterState`, `FILTER_INIT` where an implementation sets them; `none` leaves the default in place
(`dcFilter` in Machine/Operands.lean). Nothing is assumed of the filter but that it is a total function (44_pwm.md
R306). -/
opaque dcFilterSetting : Option DcFilter

/-! ### Free values -/

/-- What a byte of `sdram`, `vram` or `palette` holds after the given cold `POWER` while nothing has written it
(93_implementation_defined.md U1: any value, chosen once at the `POWER`). Log entry 10, safe. -/
opaque coldByte : Nat → Nat → Byte

/-! ### Parameters with a value -/

/-- P9 `IRQ_LEVEL` (10_state.md R30). -/
def irqLevel : Source → BitVec 4
  | .pwm => 6
  | .cmd => 8
  | .hint => 10
  | .vint => 12
  | .vres => 14

/-- P14 `SCALE[t]`: clock units per local cycle. -/
def scale : Agent → Nat := fun _ => 1

/-- P16 `IDLE_CYCLES`. -/
def idleCycles : Nat := 1

/-- P1 `PWM_FIFO_DEPTH`. -/
def pwmFifoDepth : Nat := 3

/-- P5 `DREQ_FIFO_DEPTH`. -/
def dreqFifoDepth : Nat := 8

/-- P18 `BOOTROM_WORDS[c]`. -/
def bootromWords : CoreId → Nat
  | .m => 1024
  | .s => 512

/-- P19 `ENTRY_OFFSET[c]`. -/
def entryOffset : CoreId → Long := fun _ => 0

/-- P20 `VEC_BASE`. -/
def vecBase : Nat := 0

/-- P20 `VEC[src]`. -/
def vec : Source → Nat
  | .pwm => 67
  | .cmd => 68
  | .hint => 69
  | .vint => 70
  | .vres => 71

/-- P21 `SDRAM_WORDS`. -/
def sdramWords : Nat := 131072

/-- P22 `BANK_WORDS`. -/
def bankWords : Nat := 65536

/-- P23 `PAL_WORDS`. -/
def palWords : Nat := 256

/-- P24 `PACKED_INDEX_BITS`. -/
def packedIndexBits : Nat := 4

/-- P11 `PIXBUF_LEN`. -/
def pixbufLen : Nat := 1280

end Config

end Sys2Proof
end

