-- ==== Sys2Proof/Machine/Operands.lean ====
section
/-! DEFINITION. Operand forms: byte lanes and their merge, the assembly of a long, the address map (20_memory.md R84,
R85, R90 to R93; 41_bus.md R197; 30_encoding.md R127). -/

namespace Sys2Proof

/-! ### Bytes, lanes and longs -/

/-- The upper lane of a word: bits 15:8, the byte at the even address (20_memory.md R90). -/
def hiByte (v : Word) : Byte := v.extractLsb' 8 8

/-- The lower lane of a word: bits 7:0, the byte at the odd address (20_memory.md R90). -/
def loByte (v : Word) : Byte := v.extractLsb' 0 8

/-- `{h, l}`. -/
def joinBytes (h l : Byte) : Word := h ++ l

/-- The word at the lower address of a long: bits 31:16 (20_memory.md R90). -/
def hiWord (v : Long) : Word := v.extractLsb' 16 16

/-- The word at the higher address of a long: bits 15:0 (20_memory.md R90). -/
def loWord (v : Long) : Word := v.extractLsb' 0 16

/-- `{h, l}`. -/
def joinWords (h l : Word) : Long := h ++ l

/-- What a read returns on the lanes: a lane that is not selected reads 0 (41_bus.md R190). -/
def Lanes.mask (l : Lanes) (v : Word) : Word :=
  joinBytes (if l.u then hiByte v else 0) (if l.l then loByte v else 0)

/-- Lane merge: what a write with these lanes leaves of the stored value (41_bus.md R197). -/
def Lanes.merge (l : Lanes) (old d : Word) : Word :=
  joinBytes (if l.u then hiByte d else hiByte old) (if l.l then loByte d else loByte old)

/-- The value of one bit read as a number. -/
def bit (b : Bool) : BitVec 1 := BitVec.ofBool b

/-! ### The address map -/

/-- The byte offset of a register in the page 0x004000 to 0x0043FF (10_state.md R50 to R71: the default of the
parameter `MAP`, P26). -/
def Reg.offset : Reg → BitVec 10
  | .irqen => 0x000
  | .irqstat => 0x002
  | .irqack => 0x004
  | .adapter => 0x006
  | .hperiod => 0x008
  | .hcounter => 0x00A
  | .cmdreq => 0x00C
  | .mbox i => 0x020 + BitVec.ofNat 10 (2 * i.val)
  | .pwmctl => 0x030
  | .pwmcyc => 0x032
  | .pwml => 0x034
  | .pwmr => 0x036
  | .dreqctl => 0x040
  | .dreqsrch => 0x042
  | .dreqsrcl => 0x044
  | .dreqdsth => 0x046
  | .dreqdstl => 0x048
  | .dreqlen => 0x04A
  | .vdpmode => 0x100
  | .vdpshift => 0x102
  | .aflen => 0x104
  | .afaddr => 0x106
  | .afdata => 0x108
  | .fbctl => 0x10A

/-- Every register, in the order of 10_state.md R50 to R71. -/
def Reg.all : List Reg :=
  [.irqen, .irqstat, .irqack, .adapter, .hperiod, .hcounter, .cmdreq,
   .mbox 0, .mbox 1, .mbox 2, .mbox 3, .mbox 4, .mbox 5, .mbox 6, .mbox 7,
   .pwmctl, .pwmcyc, .pwml, .pwmr,
   .dreqctl, .dreqsrch, .dreqsrcl, .dreqdsth, .dreqdstl, .dreqlen,
   .vdpmode, .vdpshift, .aflen, .afaddr, .afdata, .fbctl]

/-- A region of the address map: its first byte address and its size in bytes. -/
structure Region where
  base : Nat
  size : Nat
deriving DecidableEq, Repr

/-- The byte address lies in the region. -/
abbrev Region.has (r : Region) (n : Nat) : Prop := r.base ≤ n ∧ n < r.base + r.size

/-- The parameter `MAP` (P26): the base and size of each region, and the place of each register in the register
region. -/
structure AddressMap where
  bootrom : Region
  /-- SYSREG, MAILBOX, PWMREG, DREQREG, VDPREG and the reserved addresses between them. -/
  registers : Region
  palette : Region
  vram : Region
  sdram : Region
  offset : Reg → BitVec 10

/-- The default of `MAP` (20_memory.md R84, decision D1). -/
def Config.map : AddressMap where
  bootrom := ⟨0x00000, 0x04000⟩
  registers := ⟨0x04000, 0x00200⟩
  palette := ⟨0x04200, 2 * Config.palWords⟩
  vram := ⟨0x40000, 2 * Config.bankWords⟩
  sdram := ⟨0x60000, 2 * Config.sdramWords⟩
  offset := Reg.offset

/-- What lies at a byte offset from the first register: a register, the palette window that follows the registers, or
nothing (reserved, 10_state.md R57, R61, R62). Bit 0 of the offset is ignored (R92). -/
inductive PageEntry where
  | reg (r : Reg)
  | palette (idx : Nat)
  | reserved
deriving DecidableEq, Repr

/-- The page 0x004000 to 0x0043FF decoded (20_memory.md R84). -/
def pageEntry (off : BitVec 10) : PageEntry :=
  let n := Config.map.registers.base + off.toNat
  if Config.map.palette.has n then .palette ((n - Config.map.palette.base) / 2)
  else
    match Reg.all.find? (fun r => (Config.map.offset r).toNat / 2 == off.toNat / 2) with
    | some r => .reg r
    | none => .reserved

/-- What a transaction reaches: a region of 20_memory.md R84 with the word index in it, a register, a reserved
address, or the external space with the address handed to it. -/
inductive Target where
  | bootrom (c : CoreId) (idx : Nat)
  | reg (r : Reg)
  | palette (idx : Nat)
  | vram (idx : Nat)
  | sdram (idx : Nat)
  | reserved
  | external (a : Long)
deriving DecidableEq, Repr

/-- The target a page entry is. -/
def PageEntry.target : PageEntry → Target
  | .reg r => .reg r
  | .palette idx => .palette idx
  | .reserved => .reserved

/-- `a and not 1` (20_memory.md R92). -/
def evenAddr (a : Long) : Long := a &&& 0xFFFFFFFE

/-- The region of an address and the word in it, bit 0 dropped; the first row of the map that contains the address
wins (20_memory.md R84, R85, R92; 41_bus.md R190 `Region`). -/
def targetOf (i : Initiator) (a : Long) : Target :=
  let n := a.toNat
  if Config.map.bootrom.has n then
    match i.core? with
    | some c => .bootrom c ((n - Config.map.bootrom.base) / 2 % Config.bootromWords c)
    | none => .external (evenAddr a)
  else if Config.map.registers.has n ∨ Config.map.palette.has n then (pageEntry (a.setWidth 10)).target
  else if Config.map.vram.has n then .vram ((n - Config.map.vram.base) / 2)
  else if Config.map.sdram.has n then .sdram ((n - Config.map.sdram.base) / 2)
  else .external (evenAddr a)

/-! ### The DC-removal filter -/

/-- A signed value held to 16 bits (44_pwm.md R306 `clamp`). -/
def clamp16 (y : Int) : BitVec 16 :=
  if y < -32768 then BitVec.ofInt 16 (-32768) else if 32767 < y then BitVec.ofInt 16 32767 else BitVec.ofInt 16 y

/-- The state `(x1, y1)` of the default filter, coded (44_pwm.md R306). -/
def filterState (x1 : BitVec 16) (y1 : BitVec 32) : FilterState := [x1.signExtend 32, y1]

/-- The default `DcFilter` (44_pwm.md R306), computed exactly and narrowed at the end (log entry 14). -/
def defaultDcFilter : DcFilter where
  init := filterState 0 0
  apply f x :=
    let x1 : BitVec 16 := (f.getD 0 0).setWidth 16
    let y1 : BitVec 32 := f.getD 1 0
    let y : BitVec 32 := BitVec.ofInt 32 (x.toInt - x1.toInt + (y1.toInt * 255) / 256)
    (filterState (x.signExtend 16) y, clamp16 y.toInt)

/-- The parameter P25: the filter an implementation sets, else the default (44_pwm.md R306). -/
def dcFilter : DcFilter := Config.dcFilterSetting.getD defaultDcFilter

end Sys2Proof
end

