-- ==== Sys2Proof/WellFormed.lean ====
section
/-! DEFINITION. Which terms of `Instr` are operations: the checks the operand types do not make already
(30_encoding.md R121, R133; opcode_table.json rows RESERVED and EXTERNAL). -/

namespace Sys2Proof

/-- The data field of a transaction must be 0 in a read (30_encoding.md R121, R133). -/
def Dir.dataOk (rw : Dir) (d : Word) : Bool :=
  match rw with
  | .read => d == 0
  | .write => true

/-- Nothing of the register page lies at this offset (opcode_table.json row RESERVED). -/
def reservedOffset (off : BitVec 10) : Bool :=
  pageEntry off == .reserved

/-- The map gives this address to the external space (opcode_table.json row EXTERNAL). -/
def externalAddr (i : Initiator) (a : Long) : Bool :=
  targetOf i a == .external (evenAddr a)

/-- Well-formed operations. Every other operand is held to its range by its type. -/
def Instr.wellFormed : Instr → Bool
  | .busNoLane _ rw _ d => rw.dataOk d
  | .reservedRd _ _ off => reservedOffset off
  | .reservedWr _ _ off _ => reservedOffset off
  | .externalRd i _ a => externalAddr i a
  | .externalWr i _ a _ => externalAddr i a
  | _ => true

end Sys2Proof
end

