-- ==== Sys2Proof/Decode.lean ====
section
/-! DEFINITION. The decoder of 64-bit operation words, total, refusing by `none` the words that spell no operation
(30_encoding.md R120 to R133), and after it the encoder. -/

namespace Sys2Proof

/-! ### Field codes -/

/-- Field `init`: 0 = H, 1 = M, 2 = S, 3 = DREQ (30_encoding.md R121). -/
def initOf (b : BitVec 2) : Initiator :=
  if b = 0 then .h else if b = 1 then .m else if b = 2 then .s else .dreq

/-- The code of an initiator (30_encoding.md R121). -/
def Initiator.code : Initiator → BitVec 2
  | .h => 0
  | .m => 1
  | .s => 2
  | .dreq => 3

/-- Field `thr`: 0 = H, 1 = M, 2 = S, 3 = A (30_encoding.md R123). -/
def agentOf (b : BitVec 2) : Agent :=
  if b = 0 then .h else if b = 1 then .m else if b = 2 then .s else .a

/-- The code of an agent (30_encoding.md R123). -/
def Agent.code : Agent → BitVec 2
  | .h => 0
  | .m => 1
  | .s => 2
  | .a => 3

/-- A source number; above 4 it names nothing (30_encoding.md R123, R125). -/
def sourceOf (b : BitVec 3) : Option Source :=
  if b = 0 then some .pwm
  else if b = 1 then some .cmd
  else if b = 2 then some .hint
  else if b = 3 then some .vint
  else if b = 4 then some .vres
  else none

/-- The number of a source (30_encoding.md R125). -/
def Source.code : Source → BitVec 3
  | .pwm => 0
  | .cmd => 1
  | .hint => 2
  | .vint => 3
  | .vres => 4

/-- A channel bit: 0 L, 1 R (30_encoding.md R125). -/
def channelOf (b : BitVec 1) : Channel := if b = 0 then .l else .r

/-- The code of a channel (30_encoding.md R125). -/
def Channel.code : Channel → BitVec 1
  | .l => 0
  | .r => 1

/-- A core bit: 0 M, 1 S (30_encoding.md R125 `IRQ_RAISE`). -/
def coreOf (b : BitVec 1) : CoreId := if b = 0 then .m else .s

/-- The code of a core (30_encoding.md R125 `IRQ_RAISE`). -/
def CoreId.code : CoreId → BitVec 1
  | .m => 0
  | .s => 1

/-- Field `rw`: 0 = read, 1 = write (30_encoding.md R121). -/
def dirOf (b : BitVec 1) : Dir := if b = 0 then .read else .write

/-- The code of a direction (30_encoding.md R121). -/
def Dir.code : Dir → BitVec 1
  | .read => 0
  | .write => 1

/-- The fields `u` and `l`; (0, 0) selects no lane (20_memory.md R91, 30_encoding.md R126). -/
def lanesOf (ul : BitVec 2) : Option Lanes :=
  if ul = 3 then some .word else if ul = 2 then some .upper else if ul = 1 then some .lower else none

/-- The code of a lane selection, `u` above `l` (30_encoding.md R126). -/
def Lanes.code : Lanes → BitVec 2
  | .word => 3
  | .upper => 2
  | .lower => 1

/-- A field of one bit as a Boolean. -/
def flagOf (b : BitVec 1) : Bool := b == 1

/-! ### Format B -/

/-- The two levels of format B rows: a bus word matches one row of each (30_encoding.md R133). -/
inductive Level where
  | generic | target
deriving DecidableEq, Repr

/-- The generic transaction (30_encoding.md R126). -/
def genericInstr (i : Initiator) (rw : Dir) (ln : Lanes) (a : Long) (d : Word) : Instr :=
  match rw, ln with
  | .read, .word => .rd16 i a
  | .read, .upper => .rd8u i a
  | .read, .lower => .rd8l i a
  | .write, .word => .wr16 i a d
  | .write, .upper => .wr8u i a d
  | .write, .lower => .wr8l i a d

/-- The row `<register>.RD`. -/
def Reg.readInstr (r : Reg) (i : Initiator) (ln : Lanes) : Instr :=
  match r with
  | .irqen => .irqenRd i ln
  | .irqstat => .irqstatRd i ln
  | .irqack => .irqackRd i ln
  | .adapter => .adapterRd i ln
  | .hperiod => .hperiodRd i ln
  | .hcounter => .hcounterRd i ln
  | .cmdreq => .cmdreqRd i ln
  | .mbox 0 => .mbox0Rd i ln
  | .mbox 1 => .mbox1Rd i ln
  | .mbox 2 => .mbox2Rd i ln
  | .mbox 3 => .mbox3Rd i ln
  | .mbox 4 => .mbox4Rd i ln
  | .mbox 5 => .mbox5Rd i ln
  | .mbox 6 => .mbox6Rd i ln
  | .mbox 7 => .mbox7Rd i ln
  | .pwmctl => .pwmctlRd i ln
  | .pwmcyc => .pwmcycRd i ln
  | .pwml => .pwmlRd i ln
  | .pwmr => .pwmrRd i ln
  | .dreqctl => .dreqctlRd i ln
  | .dreqsrch => .dreqsrchRd i ln
  | .dreqsrcl => .dreqsrclRd i ln
  | .dreqdsth => .dreqdsthRd i ln
  | .dreqdstl => .dreqdstlRd i ln
  | .dreqlen => .dreqlenRd i ln
  | .vdpmode => .vdpmodeRd i ln
  | .vdpshift => .vdpshiftRd i ln
  | .aflen => .aflenRd i ln
  | .afaddr => .afaddrRd i ln
  | .afdata => .afdataRd i ln
  | .fbctl => .fbctlRd i ln

/-- The row `<register>.WR`. -/
def Reg.writeInstr (r : Reg) (i : Initiator) (ln : Lanes) (d : Word) : Instr :=
  match r with
  | .irqen => .irqenWr i ln d
  | .irqstat => .irqstatWr i ln d
  | .irqack => .irqackWr i ln d
  | .adapter => .adapterWr i ln d
  | .hperiod => .hperiodWr i ln d
  | .hcounter => .hcounterWr i ln d
  | .cmdreq => .cmdreqWr i ln d
  | .mbox 0 => .mbox0Wr i ln d
  | .mbox 1 => .mbox1Wr i ln d
  | .mbox 2 => .mbox2Wr i ln d
  | .mbox 3 => .mbox3Wr i ln d
  | .mbox 4 => .mbox4Wr i ln d
  | .mbox 5 => .mbox5Wr i ln d
  | .mbox 6 => .mbox6Wr i ln d
  | .mbox 7 => .mbox7Wr i ln d
  | .pwmctl => .pwmctlWr i ln d
  | .pwmcyc => .pwmcycWr i ln d
  | .pwml => .pwmlWr i ln d
  | .pwmr => .pwmrWr i ln d
  | .dreqctl => .dreqctlWr i ln d
  | .dreqsrch => .dreqsrchWr i ln d
  | .dreqsrcl => .dreqsrclWr i ln d
  | .dreqdsth => .dreqdsthWr i ln d
  | .dreqdstl => .dreqdstlWr i ln d
  | .dreqlen => .dreqlenWr i ln d
  | .vdpmode => .vdpmodeWr i ln d
  | .vdpshift => .vdpshiftWr i ln d
  | .aflen => .aflenWr i ln d
  | .afaddr => .afaddrWr i ln d
  | .afdata => .afdataWr i ln d
  | .fbctl => .fbctlWr i ln d

/-- The row of level `target`, by the address map (30_encoding.md R133). -/
def targetInstr (i : Initiator) (rw : Dir) (ln : Lanes) (a : Long) (d : Word) : Instr :=
  match targetOf i a, rw with
  | .bootrom c _, .read => .bootromRd c ln (a.setWidth 14)
  | .bootrom c _, .write => .bootromWr c ln (a.setWidth 14) d
  | .reg r, .read => r.readInstr i ln
  | .reg r, .write => r.writeInstr i ln d
  | .palette _, .read => .paletteRd i ln (a.setWidth 9)
  | .palette _, .write => .paletteWr i ln (a.setWidth 9) d
  | .vram _, .read => .vramRd i ln (a.setWidth 17)
  | .vram _, .write => .vramWr i ln (a.setWidth 17) d
  | .sdram _, .read => if a.toNat < 0x80000 then .sdramLoRd i ln (a.setWidth 17) else .sdramHiRd i ln (a.setWidth 17)
  | .sdram _, .write =>
    if a.toNat < 0x80000 then .sdramLoWr i ln (a.setWidth 17) d else .sdramHiWr i ln (a.setWidth 17) d
  | .reserved, .read => .reservedRd i ln (a.setWidth 10)
  | .reserved, .write => .reservedWr i ln (a.setWidth 10) d
  | .external _, .read => .externalRd i ln a
  | .external _, .write => .externalWr i ln a d

/-- A format B word whose fields are these (30_encoding.md R121, R133): `z` is the field that must be 0. -/
def decodeBus (lvl : Level) (i : Initiator) (rw : Dir) (ul : BitVec 2) (z : BitVec 7) (a : Long) (d : Word) :
    Option Instr :=
  if z = 0 ∧ rw.dataOk d = true then
    match lanesOf ul, lvl with
    | some ln, .generic => some (genericInstr i rw ln a d)
    | some ln, .target => some (targetInstr i rw ln a d)
    | none, .generic => some (.busNoLane i rw a d)
    | none, .target => none
  else none

/-! ### Formats E and I -/

/-- An event word with this opcode and argument; unused bits of the argument must be 0 (30_encoding.md R122, R124). -/
def decodeEvent (op : BitVec 8) (z : BitVec 20) (arg : BitVec 32) : Option Instr :=
  if z = 0 then
    if op = 0x01 then
      if arg.extractLsb' 1 31 = 0 then some (.power (flagOf (arg.extractLsb' 0 1))) else none
    else if op = 0x02 then if arg = 0 then some .restart else none
    else if op = 0x03 then if arg = 0 then some .unload else none
    else if op = 0x10 then
      if arg.extractLsb' 1 31 = 0 then some (.vblank (flagOf (arg.extractLsb' 0 1))) else none
    else if op = 0x11 then
      if arg.extractLsb' 1 31 = 0 then some (.hblank (flagOf (arg.extractLsb' 0 1))) else none
    else if op = 0x12 then
      if arg.extractLsb' 9 23 = 0 then some (.scanline (arg.extractLsb' 0 9)) else none
    else if op = 0x20 then some (.hostAdvance arg)
    else if op = 0x21 then if arg = 0 then some .hostSync else none
    else none
  else none

/-- An internal-step word with this opcode, performer and argument (30_encoding.md R123, R125). -/
def decodeInternal (op : BitVec 8) (thr : BitVec 2) (z : BitVec 18) (arg : BitVec 32) : Option Instr :=
  if z = 0 then
    if op = 0x01 then
      if arg = 0 ∧ thr = 1 then some .coreStepM
      else if arg = 0 ∧ thr = 2 then some .coreStepS
      else none
    else if op = 0x02 then if arg = 0 then some (.syncResolve (agentOf thr)) else none
    else if op = 0x03 then if arg = 0 ∧ thr = 3 then some .audioStep else none
    else if op = 0x10 then if arg = 0 ∧ thr = 3 then some .pwmTimerStep else none
    else if op = 0x11 then if arg = 0 ∧ thr = 3 then some .sampleTick else none
    else if op = 0x12 then
      if arg.extractLsb' 13 19 = 0 then
        some (.fifoWrite (agentOf thr) (channelOf (arg.extractLsb' 12 1)) (arg.extractLsb' 0 12))
      else none
    else if op = 0x13 then
      if arg.extractLsb' 13 19 = 0 ∧ arg.extractLsb' 0 12 = 0 ∧ thr = 3 then
        some (.fifoRead (channelOf (arg.extractLsb' 12 1)))
      else none
    else if op = 0x14 then
      if arg.extractLsb' 13 19 = 0 ∧ arg.extractLsb' 0 12 = 0 ∧ thr = 3 then
        some (.fifoDrain (channelOf (arg.extractLsb' 12 1)))
      else none
    else if op = 0x20 then if arg = 0 ∧ thr = 3 then some .dreqStep else none
    else if op = 0x28 then if arg = 0 ∧ thr = 3 then some .autofillStep else none
    else if op = 0x30 then
      if arg.extractLsb' 4 28 = 0 then
        (sourceOf (arg.extractLsb' 0 3)).map (fun src => .irqRaise (agentOf thr) (coreOf (arg.extractLsb' 3 1)) src)
      else none
    else if op = 0x31 then
      if arg = 0 ∧ thr = 1 then some .irqQueryM
      else if arg = 0 ∧ thr = 2 then some .irqQueryS
      else none
    else if op = 0x32 then
      if arg.extractLsb' 3 29 = 0 ∧ thr = 1 then (sourceOf (arg.extractLsb' 0 3)).map .irqDispatchM
      else if arg.extractLsb' 3 29 = 0 ∧ thr = 2 then (sourceOf (arg.extractLsb' 0 3)).map .irqDispatchS
      else none
    else if op = 0x40 then if arg = 0 ∧ thr = 0 then some .latchCommit else none
    else if op = 0x41 then if arg = 0 then some (.fbCommit (agentOf thr)) else none
    else if op = 0x42 then
      if arg.extractLsb' 1 31 = 0 then some (.selectFb (agentOf thr) (flagOf (arg.extractLsb' 0 1))) else none
    else none
  else none

/-! ### The decoder -/

/-- The decoding procedure of 30_encoding.md R133 at one level. Words of formats E and I have one row, at either. -/
def decodeAt (lvl : Level) (w : OpWord) : Option Instr :=
  if w.extractLsb' 60 4 = 1 then
    decodeBus lvl (initOf (w.extractLsb' 58 2)) (dirOf (w.extractLsb' 57 1)) (w.extractLsb' 55 2) (w.extractLsb' 48 7)
      (w.extractLsb' 16 32) (w.extractLsb' 0 16)
  else if w.extractLsb' 60 4 = 2 then decodeEvent (w.extractLsb' 52 8) (w.extractLsb' 32 20) (w.extractLsb' 0 32)
  else if w.extractLsb' 60 4 = 3 then
    decodeInternal (w.extractLsb' 52 8) (w.extractLsb' 50 2) (w.extractLsb' 32 18) (w.extractLsb' 0 32)
  else none

/-- The row is one of the two that name no resource of the block (opcode_table.json rows EXTERNAL). -/
def Instr.isExternal : Instr → Bool
  | .externalRd _ _ _ => true
  | .externalWr _ _ _ _ => true
  | _ => false

/-- The instruction a word is taken as: the register or window row where one matches, else the generic row. Both rows
of a bus word have the same effect (log entry 2). -/
def decode (w : OpWord) : Option Instr :=
  match decodeAt .target w with
  | some i => if i.isExternal then decodeAt .generic w else some i
  | none => decodeAt .generic w

/-- The host's name for the decoder: the instruction whose bits are `w`, of which the table gives `nbits`. An operation
is one word of 64 bits (30_encoding.md R120). -/
def decodeTableWord (nbits w : Nat) : Option Instr :=
  decode (BitVec.ofNat 64 (w % 2 ^ nbits))

/-! ### The encoder -/

/-- A format B word (30_encoding.md R121). -/
def busWord (i : Initiator) (rw : Dir) (ul : BitVec 2) (a : Long) (d : Word) : OpWord :=
  (1 : BitVec 4) ++ i.code ++ rw.code ++ ul ++ (0 : BitVec 7) ++ a ++ d

/-- A format E word (30_encoding.md R122). -/
def eventWord (op : BitVec 8) (arg : BitVec 32) : OpWord :=
  (2 : BitVec 4) ++ op ++ (0 : BitVec 20) ++ arg

/-- A format I word (30_encoding.md R123). -/
def internalWord (op : BitVec 8) (thr : BitVec 2) (arg : BitVec 32) : OpWord :=
  (3 : BitVec 4) ++ op ++ thr ++ (0 : BitVec 18) ++ arg

/-- The address of an offset in the register page 0x004000 to 0x0043FF (20_memory.md R84). -/
def pageAddr (off : BitVec 10) : Long := (0x10 : BitVec 22) ++ off

/-- The word of a register read (10_state.md R50 to R71). -/
def regReadWord (r : Reg) (i : Initiator) (ln : Lanes) : OpWord :=
  busWord i .read ln.code (pageAddr r.offset) 0

/-- The word of a register write (10_state.md R50 to R71). -/
def regWriteWord (r : Reg) (i : Initiator) (ln : Lanes) (d : Word) : OpWord :=
  busWord i .write ln.code (pageAddr r.offset) d

/-- The argument of `FIFO_WRITE`, `FIFO_READ`, `FIFO_DRAIN` (30_encoding.md R125). -/
def channelArg (ch : Channel) (sample : BitVec 12) : BitVec 32 :=
  (0 : BitVec 19) ++ ch.code ++ sample

/-- A one-bit argument (30_encoding.md R124, R125). -/
def flagArg (b : Bool) : BitVec 32 := (0 : BitVec 31) ++ bit b

/-- The argument that names a source (30_encoding.md R125). -/
def sourceArg (src : Source) : BitVec 32 := (0 : BitVec 29) ++ src.code

/-- The word of an operation, written from 30_encoding.md R121 to R126 and the address map. A register row has no
field for bit 0 of the address; it is written 0 (log entry 3). -/
def encode : Instr → OpWord
  | .rd16 i a => busWord i .read 3 a 0
  | .rd8u i a => busWord i .read 2 a 0
  | .rd8l i a => busWord i .read 1 a 0
  | .wr16 i a d => busWord i .write 3 a d
  | .wr8u i a d => busWord i .write 2 a d
  | .wr8l i a d => busWord i .write 1 a d
  | .busNoLane i rw a d => busWord i rw 0 a d
  | .irqenRd i ln => regReadWord .irqen i ln
  | .irqenWr i ln d => regWriteWord .irqen i ln d
  | .irqstatRd i ln => regReadWord .irqstat i ln
  | .irqstatWr i ln d => regWriteWord .irqstat i ln d
  | .irqackRd i ln => regReadWord .irqack i ln
  | .irqackWr i ln d => regWriteWord .irqack i ln d
  | .adapterRd i ln => regReadWord .adapter i ln
  | .adapterWr i ln d => regWriteWord .adapter i ln d
  | .hperiodRd i ln => regReadWord .hperiod i ln
  | .hperiodWr i ln d => regWriteWord .hperiod i ln d
  | .hcounterRd i ln => regReadWord .hcounter i ln
  | .hcounterWr i ln d => regWriteWord .hcounter i ln d
  | .cmdreqRd i ln => regReadWord .cmdreq i ln
  | .cmdreqWr i ln d => regWriteWord .cmdreq i ln d
  | .mbox0Rd i ln => regReadWord (.mbox 0) i ln
  | .mbox0Wr i ln d => regWriteWord (.mbox 0) i ln d
  | .mbox1Rd i ln => regReadWord (.mbox 1) i ln
  | .mbox1Wr i ln d => regWriteWord (.mbox 1) i ln d
  | .mbox2Rd i ln => regReadWord (.mbox 2) i ln
  | .mbox2Wr i ln d => regWriteWord (.mbox 2) i ln d
  | .mbox3Rd i ln => regReadWord (.mbox 3) i ln
  | .mbox3Wr i ln d => regWriteWord (.mbox 3) i ln d
  | .mbox4Rd i ln => regReadWord (.mbox 4) i ln
  | .mbox4Wr i ln d => regWriteWord (.mbox 4) i ln d
  | .mbox5Rd i ln => regReadWord (.mbox 5) i ln
  | .mbox5Wr i ln d => regWriteWord (.mbox 5) i ln d
  | .mbox6Rd i ln => regReadWord (.mbox 6) i ln
  | .mbox6Wr i ln d => regWriteWord (.mbox 6) i ln d
  | .mbox7Rd i ln => regReadWord (.mbox 7) i ln
  | .mbox7Wr i ln d => regWriteWord (.mbox 7) i ln d
  | .pwmctlRd i ln => regReadWord .pwmctl i ln
  | .pwmctlWr i ln d => regWriteWord .pwmctl i ln d
  | .pwmcycRd i ln => regReadWord .pwmcyc i ln
  | .pwmcycWr i ln d => regWriteWord .pwmcyc i ln d
  | .pwmlRd i ln => regReadWord .pwml i ln
  | .pwmlWr i ln d => regWriteWord .pwml i ln d
  | .pwmrRd i ln => regReadWord .pwmr i ln
  | .pwmrWr i ln d => regWriteWord .pwmr i ln d
  | .dreqctlRd i ln => regReadWord .dreqctl i ln
  | .dreqctlWr i ln d => regWriteWord .dreqctl i ln d
  | .dreqsrchRd i ln => regReadWord .dreqsrch i ln
  | .dreqsrchWr i ln d => regWriteWord .dreqsrch i ln d
  | .dreqsrclRd i ln => regReadWord .dreqsrcl i ln
  | .dreqsrclWr i ln d => regWriteWord .dreqsrcl i ln d
  | .dreqdsthRd i ln => regReadWord .dreqdsth i ln
  | .dreqdsthWr i ln d => regWriteWord .dreqdsth i ln d
  | .dreqdstlRd i ln => regReadWord .dreqdstl i ln
  | .dreqdstlWr i ln d => regWriteWord .dreqdstl i ln d
  | .dreqlenRd i ln => regReadWord .dreqlen i ln
  | .dreqlenWr i ln d => regWriteWord .dreqlen i ln d
  | .vdpmodeRd i ln => regReadWord .vdpmode i ln
  | .vdpmodeWr i ln d => regWriteWord .vdpmode i ln d
  | .vdpshiftRd i ln => regReadWord .vdpshift i ln
  | .vdpshiftWr i ln d => regWriteWord .vdpshift i ln d
  | .aflenRd i ln => regReadWord .aflen i ln
  | .aflenWr i ln d => regWriteWord .aflen i ln d
  | .afaddrRd i ln => regReadWord .afaddr i ln
  | .afaddrWr i ln d => regWriteWord .afaddr i ln d
  | .afdataRd i ln => regReadWord .afdata i ln
  | .afdataWr i ln d => regWriteWord .afdata i ln d
  | .fbctlRd i ln => regReadWord .fbctl i ln
  | .fbctlWr i ln d => regWriteWord .fbctl i ln d
  | .bootromRd c ln off => busWord c.init .read ln.code ((0 : BitVec 18) ++ off) 0
  | .paletteRd i ln off => busWord i .read ln.code ((0x21 : BitVec 23) ++ off) 0
  | .vramRd i ln off => busWord i .read ln.code ((2 : BitVec 15) ++ off) 0
  | .sdramLoRd i ln off => busWord i .read ln.code ((3 : BitVec 15) ++ off) 0
  | .sdramHiRd i ln off => busWord i .read ln.code ((4 : BitVec 15) ++ off) 0
  | .reservedRd i ln off => busWord i .read ln.code (pageAddr off) 0
  | .externalRd i ln a => busWord i .read ln.code a 0
  | .bootromWr c ln off d => busWord c.init .write ln.code ((0 : BitVec 18) ++ off) d
  | .paletteWr i ln off d => busWord i .write ln.code ((0x21 : BitVec 23) ++ off) d
  | .vramWr i ln off d => busWord i .write ln.code ((2 : BitVec 15) ++ off) d
  | .sdramLoWr i ln off d => busWord i .write ln.code ((3 : BitVec 15) ++ off) d
  | .sdramHiWr i ln off d => busWord i .write ln.code ((4 : BitVec 15) ++ off) d
  | .reservedWr i ln off d => busWord i .write ln.code (pageAddr off) d
  | .externalWr i ln a d => busWord i .write ln.code a d
  | .power reset => eventWord 0x01 (flagArg reset)
  | .restart => eventWord 0x02 0
  | .unload => eventWord 0x03 0
  | .vblank level => eventWord 0x10 (flagArg level)
  | .hblank level => eventWord 0x11 (flagArg level)
  | .scanline y => eventWord 0x12 ((0 : BitVec 23) ++ y)
  | .hostAdvance n => eventWord 0x20 n
  | .hostSync => eventWord 0x21 0
  | .coreStepM => internalWord 0x01 1 0
  | .coreStepS => internalWord 0x01 2 0
  | .syncResolve thr => internalWord 0x02 thr.code 0
  | .audioStep => internalWord 0x03 3 0
  | .pwmTimerStep => internalWord 0x10 3 0
  | .sampleTick => internalWord 0x11 3 0
  | .fifoWrite thr ch sample => internalWord 0x12 thr.code (channelArg ch sample)
  | .fifoRead ch => internalWord 0x13 3 (channelArg ch 0)
  | .fifoDrain ch => internalWord 0x14 3 (channelArg ch 0)
  | .dreqStep => internalWord 0x20 3 0
  | .autofillStep => internalWord 0x28 3 0
  | .irqRaise thr c src => internalWord 0x30 thr.code ((0 : BitVec 28) ++ c.code ++ src.code)
  | .irqQueryM => internalWord 0x31 1 0
  | .irqQueryS => internalWord 0x31 2 0
  | .irqDispatchM src => internalWord 0x32 1 (sourceArg src)
  | .irqDispatchS src => internalWord 0x32 2 (sourceArg src)
  | .latchCommit => internalWord 0x40 0 0
  | .fbCommit thr => internalWord 0x41 thr.code 0
  | .selectFb thr bank => internalWord 0x42 thr.code (flagArg bank)

/-- The level at which `encode`'s word decodes to the operation: `target` for the register and window rows. -/
def Instr.level : Instr → Level
  | .rd16 _ _ | .rd8u _ _ | .rd8l _ _ | .wr16 _ _ _ | .wr8u _ _ _ | .wr8l _ _ _ | .busNoLane _ _ _ _ => .generic
  | _ => .target

end Sys2Proof
end

