-- ==== Sys2Proof/Machine/State.lean ====
section
/-! DEFINITION. The state of the block, plain data, in the order of spec/10_state.md; the reasons a step can stop; the
state after reset (70_reset_and_hazards.md R390, R397). -/

namespace Sys2Proof.Machine

/-! ### Indexed data -/

/-- One value for each agent H, M, S, A. -/
structure PerAgent (α : Type) where
  h : α
  m : α
  s : α
  a : α
deriving DecidableEq, Repr

/-- One value for each core. -/
structure PerCore (α : Type) where
  m : α
  s : α
deriving DecidableEq, Repr

/-- One value for each audio channel. -/
structure PerChannel (α : Type) where
  l : α
  r : α
deriving DecidableEq, Repr

/-- One bit for each interrupt source (10_state.md R29). -/
structure SourceBits where
  pwm : Bool
  cmd : Bool
  hint : Bool
  vint : Bool
  vres : Bool
deriving DecidableEq, Repr

/-- The entry of an agent. -/
def PerAgent.get {α : Type} (p : PerAgent α) : Agent → α
  | .h => p.h
  | .m => p.m
  | .s => p.s
  | .a => p.a

/-- The entry of an agent replaced. -/
def PerAgent.set {α : Type} (p : PerAgent α) (t : Agent) (v : α) : PerAgent α :=
  match t with
  | .h => { p with h := v }
  | .m => { p with m := v }
  | .s => { p with s := v }
  | .a => { p with a := v }

/-- The entry of a core. -/
def PerCore.get {α : Type} (p : PerCore α) : CoreId → α
  | .m => p.m
  | .s => p.s

/-- The entry of a core replaced. -/
def PerCore.set {α : Type} (p : PerCore α) (c : CoreId) (v : α) : PerCore α :=
  match c with
  | .m => { p with m := v }
  | .s => { p with s := v }

/-- The entry of a channel. -/
def PerChannel.get {α : Type} (p : PerChannel α) : Channel → α
  | .l => p.l
  | .r => p.r

/-- The entry of a channel replaced. -/
def PerChannel.set {α : Type} (p : PerChannel α) (ch : Channel) (v : α) : PerChannel α :=
  match ch with
  | .l => { p with l := v }
  | .r => { p with r := v }

/-- The bit of a source. -/
def SourceBits.get (b : SourceBits) : Source → Bool
  | .pwm => b.pwm
  | .cmd => b.cmd
  | .hint => b.hint
  | .vint => b.vint
  | .vres => b.vres

/-- The bit of a source replaced. -/
def SourceBits.set (b : SourceBits) (src : Source) (v : Bool) : SourceBits :=
  match src with
  | .pwm => { b with pwm := v }
  | .cmd => { b with cmd := v }
  | .hint => { b with hint := v }
  | .vint => { b with vint := v }
  | .vres => { b with vres := v }

/-- No source set. -/
def SourceBits.none : SourceBits := ⟨false, false, false, false, false⟩

/-! ### The units -/

/-- The interrupt controller of a core: the enable and the active bit of each source (10_state.md R29). -/
structure IrqCtl where
  enable : SourceBits
  active : SourceBits
deriving DecidableEq, Repr

/-- What the block holds for one core: the engine's registers (R26, R27), the two thresholds (R23), the two accrued
deficits (R24) and its interrupt controller (R29) (10_state.md). -/
structure CoreState where
  regs : CoreRegs
  minCyclesBetweenSh2Syncs : BitVec 32
  minCyclesBetweenM68kSyncs : BitVec 32
  cyclesUntilSh2Sync : BitVec 32
  cyclesUntilM68kSync : BitVec 32
  irq : IrqCtl
deriving DecidableEq, Repr

/-- The display modes, coded 0 to 3 in this order (10_state.md R36). -/
inductive DisplayMode where
  | blank | packed | direct | rle
deriving DecidableEq, Repr

/-- The display registers, live (10_state.md R36) or latched (R37). -/
structure Display where
  mode : DisplayMode
  lines : Bool
  priority : Bool
  dotshift : Bool
deriving DecidableEq, Repr

/-- The display engine (10_state.md R36 to R39). -/
structure Vdp where
  live : Display
  latch : Display
  autofillLength : BitVec Config.aflenBits
  autofillAddress : BitVec 16
  autofillData : Word
  autofillActive : Bool
  autofillRemaining : BitVec Config.aflenBits
  fbReq : Bool
  vblank : Bool
  hblank : Bool
deriving DecidableEq, Repr

/-- The audio pipeline (10_state.md R41 to R44). -/
structure Pwm where
  lmode : BitVec 2
  rmode : BitVec 2
  mono : Bool
  dreqIRQ : Bool
  timer : BitVec 4
  cycle : BitVec 12
  fifo : PerChannel (List (BitVec 12))
  last : PerChannel (BitVec 12)
  dc : PerChannel FilterState
  periods : BitVec 32
  counter : BitVec 32
deriving DecidableEq, Repr

/-- The DREQ controller (10_state.md R46). -/
structure Dreq where
  vram : Bool
  active : Bool
  dma : Bool
  source : BitVec 24
  target : BitVec 24
  length : BitVec 16
  fifo : List Word
deriving DecidableEq, Repr

/-- The IO control registers (10_state.md R47). -/
structure Io where
  adapterEnable : Bool
  adapterReset : Bool
  resetEnable : Bool
  cartridgeMode : Bool
  romBank : BitVec Config.romBankBits
  hperiod : BitVec 16
  hcounter : BitVec 16
deriving DecidableEq, Repr

/-- What an operation returned to its caller. The model's own (log entry 15). -/
inductive OpResult where
  /-- The operation returns nothing. -/
  | none
  /-- A bus transaction: the value (0 for a write) and the wait count (41_bus.md R190, 20_memory.md R97). -/
  | bus (value : Word) (wait : Nat)
  /-- `IRQ_QUERY`: the pending source of highest priority, if any (42_interrupt.md R225). -/
  | query (src : Option Source)
  /-- `FIFO_READ`, `FIFO_DRAIN`: the sample and whether the FIFO was emptied (44_pwm.md R296, R297). -/
  | sample (value : BitVec 12) (emptied : Bool)
deriving DecidableEq, Repr

/-- The operations that call others: the places from which 41_bus.md R204 and 30_encoding.md R125 let a transaction of a
core or of DREQ, or a sub-procedure, be made. The model's own (log entry 4). -/
inductive Operation where
  /-- An event or a bus transaction of the host (40_scheduler.md R162). -/
  | host
  /-- A normal `CORE_STEP` of the core, past its gate (40_scheduler.md R152); a held or a gated step calls nothing (R153,
  R154). -/
  | normalStep (c : CoreId)
  /-- `AUDIO_STEP`, outside `DREQ_STEP` (40_scheduler.md R158). -/
  | audioStep
  /-- `DREQ_STEP` (45_dreq.md R323). -/
  | dreqStep
deriving DecidableEq, Repr

/-- Memory as a list of (location, byte) pairs, locations strictly rising, no entry equal to what an unlisted location
reads as (`Memory.wf`). Locations are numbered by `MemId.loc` in Machine/Ops.lean. -/
abbrev Memory := List Host.Cell

/-- The state of the block. Fields in the order of spec/10_state.md; the last six are the model's own. -/
structure State where
  /-- The holder of the single execution token (R21). -/
  token : Agent
  /-- The local cycle counters (R22). -/
  clk : PerAgent (BitVec Config.clkBits)
  /-- The saved continuation of a synchronisation in progress (R25). -/
  pend : PerAgent (List Agent)
  /-- M exists (R28). -/
  aliveM : Bool
  /-- S exists (R28). -/
  aliveS : Bool
  /-- A exists (R28). -/
  aliveA : Bool
  /-- What is private to each core (R23, R24, R26, R27, R29). -/
  cores : PerCore CoreState
  /-- Boot ROMs, palette, both framebuffer banks and SDRAM (R32 to R35). -/
  mem : Memory
  /-- Which bank is the display side (R34). -/
  fbSel : Bool
  /-- The display engine (R36 to R39). -/
  vdp : Vdp
  /-- The audio pipeline (R41 to R44). -/
  pwm : Pwm
  /-- The samples pushed to the audio sink, oldest first (R45). -/
  audioOut : List (BitVec 16 × BitVec 16)
  /-- The DREQ controller (R46). -/
  dreq : Dreq
  /-- The IO control registers (R47). -/
  io : Io
  /-- The mailbox registers (R48). -/
  mailbox : Vector Word 8
  /-- The transactions passed to the external space, oldest first (R49). -/
  extLog : List ExtEntry
  /-- The number of cold `POWER`s, by which the free contents of memory are drawn (log entry 10). -/
  powerOns : Nat
  /-- The operation words the host has presented and the block has not performed, next first (log entry 1). -/
  ops : List OpWord
  /-- What the last operation returned (log entry 15). -/
  result : OpResult
  /-- The caller's scanline buffer (43_vdp.md R256; log entry 16). -/
  pixels : List (BitVec 32)
  /-- The operation inside which the presented words are performed; none at every boundary between two steps of R159 and
  R162, so no operation sets it (log entry 4). -/
  inside : Option Operation
deriving DecidableEq, Repr

/-- Why a step stops with a fault. -/
inductive Fault where
  /-- A transaction with no lane selected, with its initiator, direction and address (60_exceptions.md R360). Raised by
  `BUS_NO_LANE` only. It is the spec's own fault; the state is the one before the step. Safe. -/
  | busContractViolation (i : Initiator) (rw : Dir) (a : Long)
deriving DecidableEq, Repr

/-- Why a step is refused: the step relation has no such transition. -/
inductive Refusal where
  /-- Raised by `exec` for an instruction that has no meaning in the model yet. Safe. -/
  | notModelled (mnemonic : String)
  /-- Raised by `exec` for an operation that is not enabled, and by `step` for a presented word that is not enabled where
  it stands (40_scheduler.md R151, R157, R158, R162; 41_bus.md R204; 93_implementation_defined.md U13). The spec refuses
  it too. Safe. -/
  | notEnabled
  /-- Raised by `step` for a presented word that spells no operation (30_encoding.md R129;
  93_implementation_defined.md U12). The spec refuses it too. Safe. -/
  | invalidWord
  /-- Raised by `step` when no internal step is enabled and the host has presented nothing: the run is over
  (40_scheduler.md R159, R165). Safe. -/
  | noOperation
deriving DecidableEq, Repr

/-- Whether an agent exists; `alive[H]` counts as 1 (10_state.md R28, 40_scheduler.md R157). -/
def State.alive (s : State) : Agent → Bool
  | .h => true
  | .m => s.aliveM
  | .s => s.aliveS
  | .a => s.aliveA

/-- The long in the boot image at a byte offset, big-endian (20_memory.md R85, R90). -/
def bootLong (c : CoreId) (off : Nat) : Long :=
  Config.bootImage c (off / 2 % Config.bootromWords c) ++ Config.bootImage c ((off / 2 + 1) % Config.bootromWords c)

/-- `Reset(v)` of the engine: every register at its power-on value, the program counter at `v`
(40_scheduler.md R150). -/
def engineResetRegs (v : Long) : CoreRegs := ⟨v, Config.engineReset v⟩

/-- What the block holds for a core after `POWER` (70_reset_and_hazards.md R390, R391, R397). -/
def CoreState.reset (c : CoreId) : CoreState where
  regs := engineResetRegs (bootLong c (Config.entryOffset c).toNat)
  minCyclesBetweenSh2Syncs := Config.cfgMinSh2 c
  minCyclesBetweenM68kSyncs := Config.cfgMinM68k c
  cyclesUntilSh2Sync := 0
  cyclesUntilM68kSync := 0
  irq := ⟨.none, .none⟩

/-- Display registers at reset: blank, 224 lines (70_reset_and_hazards.md R397). -/
def Display.reset : Display := ⟨.blank, false, false, false⟩

/-- The state right after `POWER 0` (70_reset_and_hazards.md R390, R397). The last six fields are the model's own
(log entries 1, 4, 10, 15, 16). -/
def State.reset : State where
  token := .h
  clk := ⟨0, 0, 0, 0⟩
  pend := ⟨[], [], [], []⟩
  aliveM := true
  aliveS := true
  aliveA := true
  cores := ⟨.reset .m, .reset .s⟩
  mem := []
  fbSel := false
  vdp :=
    { live := .reset, latch := .reset, autofillLength := 0, autofillAddress := 0, autofillData := 0,
      autofillActive := false, autofillRemaining := 0, fbReq := false, vblank := true, hblank := false }
  pwm :=
    { lmode := 0, rmode := 0, mono := false, dreqIRQ := false, timer := 0, cycle := 0, fifo := ⟨[], []⟩,
      last := ⟨0, 0⟩, dc := ⟨dcFilter.init, dcFilter.init⟩, periods := 16, counter := 0 }
  audioOut := []
  dreq := { vram := false, active := false, dma := false, source := 0, target := 0, length := 0, fifo := [] }
  io :=
    { adapterEnable := false, adapterReset := true, resetEnable := false, cartridgeMode := false, romBank := 0,
      hperiod := 0, hcounter := 0 }
  mailbox := Vector.replicate 8 0
  extLog := []
  powerOns := 0
  ops := []
  result := .none
  pixels := List.replicate Config.pixbufLen 0
  inside := none

/-- The state before the first `POWER`, made of any state: the threads do not exist, the token is the host's, no
operation is in progress, and every other field is any value, which is that of `s` (10_state.md R28;
70_reset_and_hazards.md R397; 93_implementation_defined.md U14; log entry 17). -/
def State.unpowered (s : State) : State :=
  { s with token := .h, aliveM := false, aliveS := false, aliveA := false, inside := none }

end Sys2Proof.Machine
end

