-- ==== Sys2Proof/Machine/Flags.lean ====
section
/-! DEFINITION. Everything the block computes as a status: engagement (10_state.md R40), the status registers and the
read values built of fields (R31, R50 to R71), the pending test of the interrupt controller. The block has no condition
codes (R31). -/

namespace Sys2Proof.Machine

/-! ### Engagement (10_state.md R40) -/

/-- The display-side bank is being scanned. -/
def scanEngaged (s : State) : Bool := !s.vdp.vblank && s.vdp.latch.mode != .blank

/-- The writable bank is being painted. -/
def paintEngaged (s : State) : Bool := s.vdp.autofillActive || (s.dreq.active && s.dreq.vram)

/-- `framebufferEngaged`. -/
def framebufferEngaged (s : State) : Bool := scanEngaged s || paintEngaged s

/-- `paletteEngaged`: scanning in one of the two indexed modes. -/
def paletteEngaged (s : State) : Bool :=
  !s.vdp.vblank && (s.vdp.latch.mode == .packed || s.vdp.latch.mode == .rle)

/-! ### Contention (20_memory.md R95, R96) -/

/-- A transaction of initiator `i` that reaches `t` is contended. -/
def contended (i : Initiator) (t : Target) (s : State) : Bool :=
  match t with
  | .vram _ => paintEngaged s && i != .dreq
  | .palette _ => paletteEngaged s
  | .sdram _ => i == .h && (s.dreq.active && !s.dreq.vram)
  | .bootrom _ _ => false
  | .reg _ => false
  | .reserved => false
  | .external _ => false

/-- The wait count of a transaction: `FB_WAIT` when contended, else 0. -/
def waitOf (i : Initiator) (t : Target) (s : State) : Nat :=
  if contended i t s then Config.fbWait else 0

/-! ### The interrupt controller -/

/-- Bits 4:0 in the order pwm, cmd, hint, vint, vres from bit 0 up (10_state.md R50, R51). -/
def sourceWord (b : SourceBits) : Word :=
  (0 : BitVec 11) ++ bit b.vres ++ bit b.vint ++ bit b.hint ++ bit b.cmd ++ bit b.pwm

/-- The five source bits of a data word (10_state.md R50, R52). -/
def sourceBitsOf (d : Word) : SourceBits :=
  ⟨d.getLsbD 0, d.getLsbD 1, d.getLsbD 2, d.getLsbD 3, d.getLsbD 4⟩

/-- A source is pending: `enable = 1 and active = 1` (42_interrupt.md R225). -/
def pending (q : IrqCtl) (src : Source) : Bool := q.enable.get src && q.active.get src

/-- The order in which pending sources are looked for: highest level first (42_interrupt.md R225). -/
def priorityOrder : List Source := [.vres, .vint, .hint, .cmd, .pwm]

/-! ### Read values built of fields -/

/-- The numeric code of a display mode (10_state.md R36). -/
def DisplayMode.code : DisplayMode → BitVec 2
  | .blank => 0
  | .packed => 1
  | .direct => 2
  | .rle => 3

/-- The display mode of a code (10_state.md R36). -/
def displayModeOf (b : BitVec 2) : DisplayMode :=
  if b = 0 then .blank else if b = 1 then .packed else if b = 2 then .direct else .rle

/-- `ADAPTER` (10_state.md R53). -/
def adapterWord (io : Io) : Word :=
  (0 : BitVec 10) ++ io.romBank ++ bit io.cartridgeMode ++ bit io.resetEnable ++ bit io.adapterReset ++
    bit io.adapterEnable

/-- `CMDREQ` (10_state.md R56). -/
def cmdreqWord (s : State) : Word :=
  (0 : BitVec 14) ++ bit s.cores.s.irq.active.cmd ++ bit s.cores.m.irq.active.cmd

/-- `PWMCTL` (10_state.md R59). -/
def pwmctlWord (p : Pwm) : Word :=
  (0 : BitVec 4) ++ p.timer ++ bit p.dreqIRQ ++ (0 : BitVec 2) ++ bit p.mono ++ p.rmode ++ p.lmode

/-- `PWML` or `PWMR`: bit 15 full, bit 14 empty (10_state.md R63, 44_pwm.md R294). -/
def fifoWord (f : List (BitVec 12)) : Word :=
  bit (f.length == Config.pwmFifoDepth) ++ bit (f.length == 0) ++ (0 : BitVec 14)

/-- `DREQCTL` (10_state.md R65). -/
def dreqctlWord (d : Dreq) : Word :=
  (0 : BitVec 13) ++ bit d.active ++ bit d.dma ++ bit d.vram

/-- `VDPMODE`: the live registers (10_state.md R67). -/
def vdpmodeWord (v : Vdp) : Word :=
  (0 : BitVec 8) ++ bit v.live.priority ++ bit v.live.lines ++ (0 : BitVec 4) ++ DisplayMode.code v.live.mode

/-- `FBCTL` (10_state.md R71, 43_vdp.md R245). -/
def fbctlWord (s : State) : Word :=
  bit s.vdp.vblank ++ bit s.vdp.hblank ++ (0 : BitVec 9) ++ bit s.vdp.fbReq ++ bit s.vdp.autofillActive ++
    bit (paletteEngaged s) ++ bit (framebufferEngaged s) ++ bit s.fbSel

/-! ### Audio timing -/

/-- `pwm.periods` as a function of `pwm.timer` (44_pwm.md R291). -/
def periodsOf (timer : BitVec 4) : BitVec 32 := if timer = 0 then 16 else timer.setWidth 32

end Sys2Proof.Machine
end

