-- ==== Sys2Proof/Machine/Ops.lean ====
section
/-! DEFINITION. The named operations over memory, registers, queues and the scheduler, shared by the meanings: memory
bytes and words, the interrupt controller, the framebuffer engine, the FIFOs, the registers, the bus, `MemRead` and
`MemWrite`, interrupt entry, the clocks. -/

namespace Sys2Proof.Machine

/-! ### Memory: a list in canonical form -/

/-- The byte listed at a location, if one is. -/
def Memory.lookup (m : Memory) (a : Nat) : Option Byte :=
  match m with
  | [] => none
  | (k, b) :: rest => if k = a then some b else Memory.lookup rest a

/-- The list without an entry at the location. -/
def Memory.erase (m : Memory) (a : Nat) : Memory := m.filter (fun c => c.1 != a)

/-- The list with this entry at the location, in the order of locations. -/
def Memory.insert (m : Memory) (a : Nat) (b : Byte) : Memory :=
  match m with
  | [] => [(a, b)]
  | (k, c) :: rest =>
    if a < k then (a, b) :: (k, c) :: rest
    else if a = k then (a, b) :: rest
    else (k, c) :: Memory.insert rest a b

/-- What a location reads as: its entry, or `d` of it where none is listed. -/
def Memory.read (d : Nat → Byte) (m : Memory) (a : Nat) : Byte := (Memory.lookup m a).getD (d a)

/-- A byte written; writing what an unlisted location reads as removes the entry. -/
def Memory.write (d : Nat → Byte) (m : Memory) (a : Nat) (b : Byte) : Memory :=
  if b = d a then Memory.erase m a else Memory.insert m a b

/-- The canonical form: locations strictly rising, no entry equal to what an unlisted location reads as. -/
abbrev Memory.wf (d : Nat → Byte) (m : Memory) : Prop :=
  m.Pairwise (fun x y => x.1 < y.1) ∧ ∀ c ∈ m, c.2 ≠ d c.1

/-- The memories of the block (10_state.md R32 to R35). -/
inductive MemId where
  | bootM | bootS | palette | vram0 | vram1 | sdram
deriving DecidableEq, Repr

/-- The first location of a memory in the model's one list. -/
def MemId.base : MemId → Nat
  | .bootM => 0x000000
  | .bootS => 0x004000
  | .palette => 0x008000
  | .vram0 => 0x100000
  | .vram1 => 0x200000
  | .sdram => 0x300000

/-- The location of byte `off` of a memory. -/
def MemId.loc (m : MemId) (off : Nat) : Nat := m.base + off

/-- The locations of the two boot ROMs. -/
def isBootLoc (a : Nat) : Bool := decide (a < 0x8000)

/-- A byte of a word, by the parity of its offset: even is the upper lane (20_memory.md R90). -/
def byteOfWord (v : Word) (off : Nat) : Byte := if off % 2 = 0 then hiByte v else loByte v

/-- What an unlisted location reads as after `n` cold `POWER`s: the boot images (10_state.md R32), else the free value
(93_implementation_defined.md U1; log entries 10, 11). -/
def unlisted (n : Nat) (a : Nat) : Byte :=
  if a < 0x4000 then byteOfWord (Config.bootImage .m (a / 2)) a
  else if a < 0x8000 then byteOfWord (Config.bootImage .s ((a - 0x4000) / 2)) a
  else Config.coldByte n a

/-- One byte of memory. -/
def readByte (s : State) (a : Nat) : Byte := Memory.read (unlisted s.powerOns) s.mem a

/-- One byte of memory written. -/
def writeByte (s : State) (a : Nat) (b : Byte) : State :=
  { s with mem := Memory.write (unlisted s.powerOns) s.mem a b }

/-- Word `w` of a memory, big-endian (20_memory.md R90). -/
def readWord (s : State) (m : MemId) (w : Nat) : Word :=
  joinBytes (readByte s (m.loc (2 * w))) (readByte s (m.loc (2 * w + 1)))

/-- Word `w` of a memory written on the selected lanes; the other lane keeps its byte (41_bus.md R197). -/
def writeWord (s : State) (m : MemId) (w : Nat) (l : Lanes) (d : Word) : State :=
  let s1 := if l.u then writeByte s (m.loc (2 * w)) (hiByte d) else s
  if l.l then writeByte s1 (m.loc (2 * w + 1)) (loByte d) else s1

/-- The memory of a core's boot ROM. -/
def bootMem : CoreId → MemId
  | .m => .bootM
  | .s => .bootS

/-- `fbram = vram[fbSel]`: the display-side bank (10_state.md R34). -/
def frontBank (s : State) : MemId := if s.fbSel then .vram1 else .vram0

/-- `bbram = vram[1 - fbSel]`: the writable bank (10_state.md R34). -/
def backBank (s : State) : MemId := if s.fbSel then .vram0 else .vram1

/-! ### Named updates -/

/-- A clock replaced. -/
def setClk (s : State) (t : Agent) (v : BitVec Config.clkBits) : State := { s with clk := s.clk.set t v }

/-- A saved continuation replaced. -/
def setPend (s : State) (t : Agent) (l : List Agent) : State := { s with pend := s.pend.set t l }

/-- What the block holds for a core replaced. -/
def setCore (s : State) (c : CoreId) (k : CoreState) : State := { s with cores := s.cores.set c k }

/-- A core's registers replaced. -/
def setRegs (s : State) (c : CoreId) (r : CoreRegs) : State := setCore s c { s.cores.get c with regs := r }

/-- A core's interrupt controller replaced. -/
def setIrq (s : State) (c : CoreId) (q : IrqCtl) : State := setCore s c { s.cores.get c with irq := q }

/-- The result of the operation recorded. -/
def setResult (s : State) (r : OpResult) : State := { s with result := r }

/-! ### The interrupt controller (42_interrupt.md) -/

/-- `IRQ_RAISE(c, s)` (R220). -/
def irqRaise (c : CoreId) (src : Source) (s : State) : State :=
  let q := (s.cores.get c).irq
  setIrq s c { q with active := q.active.set src true }

/-- `IRQ_RAISE` on both cores, M first (R230). -/
def irqRaiseBoth (src : Source) (s : State) : State := irqRaise .s src (irqRaise .m src s)

/-- `IRQ_QUERY(c)`: the pending source of highest priority (R225). -/
def irqQuery (c : CoreId) (s : State) : Option Source :=
  priorityOrder.find? (fun src => pending (s.cores.get c).irq src)

/-- The `active` bits a write to `IRQACK` leaves: those written 1 are cleared (R224). -/
def ackBits (active : SourceBits) (d : Word) : SourceBits :=
  let w := sourceBitsOf d
  ⟨active.pwm && !w.pwm, active.cmd && !w.cmd, active.hint && !w.hint, active.vint && !w.vint,
    active.vres && !w.vres⟩

/-! ### The framebuffer engine (43_vdp.md) -/

/-- `LATCH_COMMIT` (R252). -/
def latchCommit (s : State) : State := { s with vdp := { s.vdp with latch := s.vdp.live } }

/-- `FB_COMMIT` (R247). -/
def fbCommit (s : State) : State :=
  if !framebufferEngaged s && s.fbSel != s.vdp.fbReq then { s with fbSel := s.vdp.fbReq } else s

/-- `SELECT_FB v` (R246). -/
def selectFb (v : Bool) (s : State) : State := fbCommit { s with vdp := { s.vdp with fbReq := v } }

/-- The counters of an autofill step, and its end (R249). -/
def autofillAdvance (s : State) : State :=
  let left := s.vdp.autofillRemaining - 1
  let s1 := { s with vdp := { s.vdp with
    autofillAddress := s.vdp.autofillAddress + 1
    autofillRemaining := left
    autofillActive := s.vdp.autofillActive && left != 0 } }
  if left == 0 then fbCommit s1 else s1

/-- `AUTOFILL_STEP`: the word goes straight to the writable bank, not through the arbiter (R249). -/
def autofillStep (s : State) : State :=
  autofillAdvance
    (writeWord s (backBank s) (s.vdp.autofillAddress.toNat % Config.bankWords) .word s.vdp.autofillData)

/-- `VBLANK b` (R250). -/
def vblankEvent (b : Bool) (s : State) : State :=
  let s1 := { s with vdp := { s.vdp with vblank := b } }
  if !s.vdp.vblank && b then irqRaiseBoth .vint (fbCommit (latchCommit s1)) else s1

/-- `HBLANK b` (R251). -/
def hblankEvent (b : Bool) (s : State) : State :=
  let s1 := { s with vdp := { s.vdp with hblank := b } }
  if !s.vdp.hblank && b then
    if s1.io.hperiod ≤ s1.io.hcounter then irqRaiseBoth .hint { s1 with io := { s1.io with hcounter := 0 } }
    else { s1 with io := { s1.io with hcounter := s1.io.hcounter + 1 } }
  else s1

/-! ### The scanline renderer (43_vdp.md R256 to R262) -/

/-- Pixels per line (R261: 320 pixels fill the 1280 entries). -/
def linePixels : Nat := 320

/-- A word of the display-side bank, the index taken modulo `BANK_WORDS`. -/
def fbWord (s : State) (w : Nat) : Word := readWord s (frontBank s) (w % Config.bankWords)

/-- A palette entry. -/
def paletteWord (s : State) (idx : Nat) : Word := readWord s .palette idx

/-- The number of active lines (R256). -/
def activeLines (d : Display) : Nat := if d.lines then 240 else 224

/-- The index of source pixel `p` in its word: the even pixel is the upper of the two (R258). -/
def packedIndex (w : Word) (p : Nat) : Nat :=
  (if p % 2 = 0 then w.toNat / 2 ^ Config.packedIndexBits else w.toNat) % 2 ^ Config.packedIndexBits

/-- The colours `RenderPacked` plots (R258). -/
def renderPacked (s : State) (base : Nat) : List Word :=
  (List.range linePixels).map (fun x =>
    let p := x + (if s.vdp.latch.dotshift then 1 else 0)
    paletteWord s (packedIndex (fbWord s (base + p / 2)) p))

/-- The colours `RenderDirect` plots (R259). -/
def renderDirect (s : State) (base : Nat) : List Word :=
  (List.range linePixels).map (fun x => fbWord s (base + x))

/-- The colours of the spans from `a` upward until `left` pixels are made, the last span cut (R260). A span makes at
least one pixel, so `left` spans suffice and `spans = left` never runs out. -/
def rleColours (s : State) (spans a left : Nat) : List Word :=
  match spans with
  | 0 => []
  | spans + 1 =>
    if left = 0 then []
    else
      let w := fbWord s a
      let n := min ((hiByte w).toNat + 1) left
      List.replicate n (paletteWord s (loByte w).toNat) ++ rleColours s spans (a + 1) (left - n)

/-- The colours `RenderRLE` plots (R260). -/
def renderRle (s : State) (base : Nat) : List Word := rleColours s linePixels base linePixels

/-- The buffer entry of a colour (R261): bit 16 set, bit 15 the front bit, bits 14:0 the colour. -/
def pixelEntry (priority : Bool) (c : Word) : BitVec 32 :=
  (1 : BitVec 16) ++ bit (c.getLsbD 15 ^^ priority) ++ c.extractLsb' 0 15

/-- `Plot` of one pixel: four consecutive entries (R261). -/
def plot (priority : Bool) (c : Word) : List (BitVec 32) := List.replicate 4 (pixelEntry priority c)

/-- The buffer with the colours of a line plotted from its first entry on. -/
def plotLine (priority : Bool) (colours : List Word) (px : List (BitVec 32)) : List (BitVec 32) :=
  colours.flatMap (plot priority) ++ px.drop (4 * colours.length)

/-- `SCANLINE(pixels, y)` (R256, R257). -/
def scanlineOf (s : State) (y : Nat) (px : List (BitVec 32)) : List (BitVec 32) :=
  if s.vdp.latch.mode = .blank ∨ activeLines s.vdp.latch ≤ y then px
  else
    let base := (fbWord s y).toNat
    match s.vdp.latch.mode with
    | .blank => px
    | .packed => plotLine s.vdp.latch.priority (renderPacked s base) px
    | .direct => plotLine s.vdp.latch.priority (renderDirect s base) px
    | .rle => plotLine s.vdp.latch.priority (renderRle s base) px

/-! ### The audio pipeline (44_pwm.md) -/

/-- A channel's FIFO after a write of a sample (R295). -/
def fifoPush (f : List (BitVec 12)) (v : BitVec 12) : List (BitVec 12) :=
  (if f.length = Config.pwmFifoDepth then f.tail else f) ++ [v]

/-- `FIFO_WRITE(ch, s)` (R295). -/
def fifoWrite (ch : Channel) (v : BitVec 12) (s : State) : State :=
  { s with pwm := { s.pwm with fifo := s.pwm.fifo.set ch (fifoPush (s.pwm.fifo.get ch) v) } }

/-- A channel's FIFO and last value replaced. -/
def setChannel (s : State) (ch : Channel) (f : List (BitVec 12)) (v : BitVec 12) : State :=
  { s with pwm := { s.pwm with fifo := s.pwm.fifo.set ch f, last := s.pwm.last.set ch v } }

/-- `FIFO_READ(ch)`: the value, whether the FIFO was emptied, the state (R296). -/
def fifoRead (ch : Channel) (s : State) : BitVec 12 × Bool × State :=
  match s.pwm.fifo.get ch with
  | [] => (s.pwm.last.get ch, false, s)
  | v :: rest => (v, rest.isEmpty, setChannel s ch rest v)

/-- `FIFO_DRAIN(ch)`: the newest entry, the queue emptied (R297). -/
def fifoDrain (ch : Channel) (s : State) : BitVec 12 × Bool × State :=
  match (s.pwm.fifo.get ch).getLast? with
  | none => (s.pwm.last.get ch, false, s)
  | some v => (v, true, setChannel s ch [] v)

/-- `Route(ch, m)` (R302): 0 off, 1 FIFO, 2 direct, 3 as off. -/
def route (ch : Channel) (m : BitVec 2) (s : State) : BitVec 12 × Bool × State :=
  if m = 1 then fifoRead ch s
  else if m = 2 then fifoDrain ch s
  else (0, false, s)

/-- `SAMPLE_TICK` (R301). -/
def sampleTick (s : State) : State :=
  let (rawL, eL, s1) := route .l s.pwm.lmode s
  let (rawR, eR, s2) := if s.pwm.mono then (rawL, false, s1) else route .r s.pwm.rmode s1
  let (dcL, outL) := dcFilter.apply s2.pwm.dc.l rawL
  let (dcR, outR) := dcFilter.apply s2.pwm.dc.r rawR
  let s3 := { s2 with pwm := { s2.pwm with dc := ⟨dcL, dcR⟩ }, audioOut := s2.audioOut ++ [(outL, outR)] }
  if (eL || eR) && s3.pwm.dreqIRQ then irqRaiseBoth .pwm s3 else s3

/-- `PWM_TIMER_STEP` (R300). -/
def pwmTimerStep (s : State) : State :=
  let p := { s.pwm with cycle := s.pwm.cycle + 1, counter := s.pwm.counter + 1 }
  if p.periods ≤ p.counter then sampleTick { s with pwm := { p with counter := 0 } } else { s with pwm := p }

/-! ### Reads: the registers, the regions, the bus -/

/-- The controller a banked register shows an initiator; H and DREQ have none (42_interrupt.md R222). -/
def bankedIrq (i : Initiator) (s : State) : Option IrqCtl := i.core?.map (fun c => (s.cores.get c).irq)

/-- The read value of a register (10_state.md R50 to R71; 41_bus.md R202). No read has a side effect. -/
def regRead (i : Initiator) (r : Reg) (s : State) : Word :=
  match r with
  | .irqen => match bankedIrq i s with
    | some q => sourceWord q.enable
    | none => 0
  | .irqstat => match bankedIrq i s with
    | some q => sourceWord q.active
    | none => 0
  | .irqack => 0
  | .adapter => adapterWord s.io
  | .hperiod => s.io.hperiod
  | .hcounter => s.io.hcounter
  | .cmdreq => cmdreqWord s
  | .mbox n => s.mailbox[n.val]
  | .pwmctl => pwmctlWord s.pwm
  | .pwmcyc => s.pwm.cycle.setWidth 16
  | .pwml => fifoWord s.pwm.fifo.l
  | .pwmr => fifoWord s.pwm.fifo.r
  | .dreqctl => dreqctlWord s.dreq
  | .dreqsrch => (s.dreq.source.extractLsb' 16 8).setWidth 16
  | .dreqsrcl => s.dreq.source.extractLsb' 0 16
  | .dreqdsth => (s.dreq.target.extractLsb' 16 8).setWidth 16
  | .dreqdstl => s.dreq.target.extractLsb' 0 16
  | .dreqlen => s.dreq.length
  | .vdpmode => vdpmodeWord s.vdp
  | .vdpshift => (bit s.vdp.live.dotshift).setWidth 16
  | .aflen => s.vdp.autofillLength.setWidth 16
  | .afaddr => s.vdp.autofillAddress
  | .afdata => s.vdp.autofillData
  | .fbctl => fbctlWord s

/-- What the external collaborator sees (46_io_mailbox.md R344). -/
def extView (s : State) : ExtView := ⟨s.io.adapterEnable, s.io.cartridgeMode, s.io.romBank⟩

/-- A transaction passed to the external space and logged (20_memory.md R88). -/
def logExternal (rw : Dir) (l : Lanes) (a : Long) (d : Word) (s : State) : State :=
  { s with extLog := s.extLog ++ [⟨rw, l, a, d⟩] }

/-- `RegionRead`: the whole word, before the lanes mask it, and the state (41_bus.md R198 to R203). -/
def targetRead (i : Initiator) (l : Lanes) (t : Target) (s : State) : Word × State :=
  match t with
  | .bootrom c idx => (readWord s (bootMem c) idx, s)
  | .reg r => (regRead i r s, s)
  | .palette idx => (readWord s .palette idx, s)
  | .vram idx => (readWord s (backBank s) idx, s)
  | .sdram idx => (readWord s .sdram idx, s)
  | .reserved => (0, s)
  | .external a =>
    let s1 := logExternal .read l a 0 s
    (Config.extRead (extView s1) s1.extLog l a, s1)

/-- A read transaction that reaches `t`: the value on the lanes, the wait, the state (41_bus.md R190). -/
def readAt (i : Initiator) (l : Lanes) (t : Target) (s : State) : Word × Nat × State :=
  let (v, s1) := targetRead i l t s
  (l.mask v, waitOf i t s, s1)

/-- `Bus(i, 0, u, l, a, 0)` (41_bus.md R190). -/
def busRead (i : Initiator) (l : Lanes) (a : Long) (s : State) : Word × Nat × State := readAt i l (targetOf i a) s

/-- `MemRead(i, a, n)`: the value, the sum of the waits, the state (41_bus.md R196). -/
def memRead (i : Initiator) (a : Long) (n : Size) (s : State) : Long × Nat × State :=
  match n with
  | .byte =>
    if a.getLsbD 0 then
      let (v, w, s1) := busRead i .lower a s
      ((loByte v).setWidth 32, w, s1)
    else
      let (v, w, s1) := busRead i .upper a s
      ((hiByte v).setWidth 32, w, s1)
  | .word =>
    let (v, w, s1) := busRead i .word a s
    (v.setWidth 32, w, s1)
  | .long =>
    let (hi, w1, s1) := busRead i .word (evenAddr a) s
    let (lo, w2, s2) := busRead i .word (evenAddr a + 2) s1
    (joinWords hi lo, w1 + w2, s2)

/-! ### Power-on registers of a core, interrupt entry -/

/-- The load of a core's registers from its boot ROM (70_reset_and_hazards.md R391, 46_io_mailbox.md R341). -/
def loadEntry (c : CoreId) (s : State) : State :=
  let (v, _, s1) := memRead c.init (Config.entryOffset c) .long s
  setRegs s1 c (engineResetRegs v)

/-- `IRQ_DISPATCH(c, s)`, the one way an exception is taken in this block: the vector is read from the boot-vector
table, the engine's `Enter` gives the core's registers and the program counter is the vector. The block saves nothing
and changes no state of its own; `enable` and `active` stay (42_interrupt.md R227, 60_exceptions.md R366). Answers the
wait of the vector read and the state. The block has no return from an exception (R367). -/
def irqDispatch (c : CoreId) (src : Source) (s : State) : Nat × State :=
  let (v, w, s1) := memRead c.init (BitVec.ofNat 32 (Config.vecBase + 4 * Config.vec src)) .long s
  (w, setRegs s1 c
    ⟨v, Config.engineEnter (s1.cores.get c).regs src (Config.irqLevel src) (Config.vec src) v⟩)

/-! ### Writes: the registers, the regions, the bus -/

/-- The controller of an initiator's core changed; nothing for H and DREQ (42_interrupt.md R222). -/
def updateBanked (i : Initiator) (f : IrqCtl → IrqCtl) (s : State) : State :=
  match i.core? with
  | some c => setIrq s c (f (s.cores.get c).irq)
  | none => s

/-- `ADAPTER` write (46_io_mailbox.md R340, R341). -/
def adapterWrite (l : Lanes) (d : Word) (s : State) : State :=
  if l.l then
    let s1 := { s with io := { s.io with
      adapterEnable := d.getLsbD 0
      adapterReset := d.getLsbD 1
      resetEnable := d.getLsbD 2
      cartridgeMode := d.getLsbD 3
      romBank := d.extractLsb' 4 2 } }
    if !s.io.adapterReset && d.getLsbD 1 then loadEntry .s (loadEntry .m s1) else s1
  else s

/-- `CMDREQ` write (42_interrupt.md R229). -/
def cmdreqWrite (l : Lanes) (d : Word) (s : State) : State :=
  if l.l then
    let s1 := if d.getLsbD 0 then irqRaise .m .cmd s else s
    if d.getLsbD 1 then irqRaise .s .cmd s1 else s1
  else s

/-- The lower lane of a `PWMCTL` write (44_pwm.md R290). -/
def pwmctlLower (d : Word) (p : Pwm) : Pwm :=
  { p with lmode := d.extractLsb' 0 2, rmode := d.extractLsb' 2 2, mono := d.getLsbD 4, dreqIRQ := d.getLsbD 7 }

/-- The upper lane of a `PWMCTL` write: the timer, the recomputed `periods`, the counter cleared (44_pwm.md R290). -/
def pwmctlUpper (d : Word) (p : Pwm) : Pwm :=
  { p with timer := d.extractLsb' 8 4, periods := periodsOf (d.extractLsb' 8 4), counter := 0 }

/-- `PWMCTL` write (44_pwm.md R290). -/
def pwmctlWrite (l : Lanes) (d : Word) (s : State) : State :=
  let p := if l.l then pwmctlLower d s.pwm else s.pwm
  { s with pwm := if l.u then pwmctlUpper d p else p }

/-- `PWMCYC` write (44_pwm.md R292). -/
def pwmcycWrite (l : Lanes) (d : Word) (s : State) : State :=
  { s with pwm := { s.pwm with cycle := (l.merge (s.pwm.cycle.setWidth 16) d).extractLsb' 0 12 } }

/-- `PWML` or `PWMR` write: both lanes needed (44_pwm.md R293). -/
def sampleWrite (ch : Channel) (l : Lanes) (d : Word) (s : State) : State :=
  if l.u && l.l then fifoWrite ch (d.extractLsb' 0 12) s else s

/-- `DREQCTL` write (45_dreq.md R320). -/
def dreqctlWrite (l : Lanes) (d : Word) (s : State) : State :=
  if l.l && !s.dreq.active then
    let q := { s.dreq with vram := d.getLsbD 0 }
    { s with dreq := if d.getLsbD 1 && q.length != 0 then { q with dma := true, active := true } else q }
  else s

/-- A write to an address or length register of DREQ: ignored while a transfer is active (45_dreq.md R321). -/
def dreqFieldWrite (f : Dreq → Dreq) (s : State) : State :=
  if s.dreq.active then s else { s with dreq := f s.dreq }

/-- Bits 23:16 of a 24-bit address, lane-merged (45_dreq.md R321). -/
def mergeHigh (l : Lanes) (v : BitVec 24) (d : Word) : BitVec 24 :=
  loByte (l.merge ((v.extractLsb' 16 8).setWidth 16) d) ++ v.extractLsb' 0 16

/-- Bits 15:0 of a 24-bit address, lane-merged (45_dreq.md R321). -/
def mergeLow (l : Lanes) (v : BitVec 24) (d : Word) : BitVec 24 :=
  v.extractLsb' 16 8 ++ l.merge (v.extractLsb' 0 16) d

/-- `VDPMODE` write: the live registers (43_vdp.md R240). -/
def vdpmodeWrite (l : Lanes) (d : Word) (s : State) : State :=
  if l.l then
    { s with vdp := { s.vdp with live := { s.vdp.live with
      mode := displayModeOf (d.extractLsb' 0 2), lines := d.getLsbD 6, priority := d.getLsbD 7 } } }
  else s

/-- `VDPSHIFT` write (43_vdp.md R241). -/
def vdpshiftWrite (l : Lanes) (d : Word) (s : State) : State :=
  if l.l then { s with vdp := { s.vdp with live := { s.vdp.live with dotshift := d.getLsbD 0 } } } else s

/-- `AFLEN` write (43_vdp.md R242). -/
def aflenWrite (l : Lanes) (d : Word) (s : State) : State :=
  if l.l && !s.vdp.autofillActive then { s with vdp := { s.vdp with autofillLength := loByte d } } else s

/-- `AFADDR` write (43_vdp.md R243). -/
def afaddrWrite (l : Lanes) (d : Word) (s : State) : State :=
  if s.vdp.autofillActive then s
  else { s with vdp := { s.vdp with autofillAddress := l.merge s.vdp.autofillAddress d } }

/-- `AFDATA` write: the start of a fill (43_vdp.md R244). -/
def afdataWrite (l : Lanes) (d : Word) (s : State) : State :=
  if s.vdp.autofillActive then s
  else
    let v := { s.vdp with autofillData := l.merge s.vdp.autofillData d }
    { s with vdp :=
      if v.autofillLength = 0 then v else { v with autofillRemaining := v.autofillLength, autofillActive := true } }

/-- `FBCTL` write (43_vdp.md R246). -/
def fbctlWrite (l : Lanes) (d : Word) (s : State) : State := if l.l then selectFb (d.getLsbD 0) s else s

/-- The write rule of a register (41_bus.md R202 and the family files). -/
def regWrite (i : Initiator) (r : Reg) (l : Lanes) (d : Word) (s : State) : State :=
  match r with
  | .irqen => if l.l then updateBanked i (fun q => { q with enable := sourceBitsOf d }) s else s
  | .irqstat => s
  | .irqack => if l.l then updateBanked i (fun q => { q with active := ackBits q.active d }) s else s
  | .adapter => adapterWrite l d s
  | .hperiod => { s with io := { s.io with hperiod := l.merge s.io.hperiod d } }
  | .hcounter => s
  | .cmdreq => cmdreqWrite l d s
  | .mbox n => { s with mailbox := s.mailbox.set n.val (l.merge s.mailbox[n.val] d) }
  | .pwmctl => pwmctlWrite l d s
  | .pwmcyc => pwmcycWrite l d s
  | .pwml => sampleWrite .l l d s
  | .pwmr => sampleWrite .r l d s
  | .dreqctl => dreqctlWrite l d s
  | .dreqsrch => dreqFieldWrite (fun q => { q with source := mergeHigh l q.source d }) s
  | .dreqsrcl => dreqFieldWrite (fun q => { q with source := mergeLow l q.source d }) s
  | .dreqdsth => dreqFieldWrite (fun q => { q with target := mergeHigh l q.target d }) s
  | .dreqdstl => dreqFieldWrite (fun q => { q with target := mergeLow l q.target d }) s
  | .dreqlen => dreqFieldWrite (fun q => { q with length := l.merge q.length d }) s
  | .vdpmode => vdpmodeWrite l d s
  | .vdpshift => vdpshiftWrite l d s
  | .aflen => aflenWrite l d s
  | .afaddr => afaddrWrite l d s
  | .afdata => afdataWrite l d s
  | .fbctl => fbctlWrite l d s

/-- `RegionWrite` (41_bus.md R198 to R203). -/
def targetWrite (i : Initiator) (l : Lanes) (t : Target) (d : Word) (s : State) : State :=
  match t with
  | .bootrom _ _ => s
  | .reg r => regWrite i r l d s
  | .palette idx => writeWord s .palette idx l d
  | .vram idx => writeWord s (backBank s) idx l d
  | .sdram idx => writeWord s .sdram idx l d
  | .reserved => s
  | .external a => logExternal .write l a d s

/-- A write transaction that reaches `t`: the wait, taken before the effect, and the state (41_bus.md R190). -/
def writeAt (i : Initiator) (l : Lanes) (t : Target) (d : Word) (s : State) : Nat × State :=
  (waitOf i t s, targetWrite i l t d s)

/-- `Bus(i, 1, u, l, a, d)` (41_bus.md R190). -/
def busWrite (i : Initiator) (l : Lanes) (a : Long) (d : Word) (s : State) : Nat × State :=
  writeAt i l (targetOf i a) d s

/-- `MemWrite(i, a, n, v)`: the sum of the waits and the state; a byte is driven on both lanes (41_bus.md R196). -/
def memWrite (i : Initiator) (a : Long) (n : Size) (v : Long) (s : State) : Nat × State :=
  match n with
  | .byte =>
    let b := loByte (loWord v)
    busWrite i (if a.getLsbD 0 then .lower else .upper) a (joinBytes b b) s
  | .word => busWrite i .word a (loWord v) s
  | .long =>
    let (w1, s1) := busWrite i .word (evenAddr a) (hiWord v) s
    let (w2, s2) := busWrite i .word (evenAddr a + 2) (loWord v) s1
    (w1 + w2, s2)

/-! ### The DREQ controller (45_dreq.md) -/

/-- The byte address of the word a 24-bit value names: `x << 1` (R322). -/
def dreqAddr (x : BitVec 24) : Long := (0 : BitVec 7) ++ x ++ (0 : BitVec 1)

/-- The word through the FIFO: pushed, then the oldest popped; no more than `DREQ_FIFO_DEPTH` words stay (R323; log
entry 19). -/
def dreqThrough (w : Word) (s : State) : Word × State :=
  match s.dreq.fifo with
  | [] => (w, s)
  | v :: rest => (v, { s with dreq := { s.dreq with fifo := (rest ++ [w]).take Config.dreqFifoDepth } })

/-- The write of a transfer step (R322, R323). -/
def dreqStore (v : Word) (s : State) : State :=
  if s.dreq.vram then writeWord s (backBank s) (s.dreq.target.toNat % Config.bankWords) .word v
  else (busWrite .dreq .word (dreqAddr s.dreq.target) v s).2

/-- The counters of a transfer step, and its end (R323, R325). -/
def dreqAdvance (s : State) : State :=
  let q := { s.dreq with
    source := s.dreq.source + 1
    target := s.dreq.target + 1
    length := s.dreq.length - 1 }
  if q.length = 0 then fbCommit { s with dreq := { q with active := false, dma := false } }
  else { s with dreq := q }

/-- `DREQ_STEP` (R323). -/
def dreqStep (s : State) : State :=
  let (w, _, s1) := busRead .dreq .word (dreqAddr s.dreq.source) s
  let (v, s2) := dreqThrough w s1
  dreqAdvance (dreqStore v s2)

/-! ### The scheduler (40_scheduler.md) -/

/-- `sat32(d + n)` (00_scope.md R5, R155). -/
def satAdd (d : BitVec 32) (n : Nat) : BitVec 32 := BitVec.ofNat 32 (min (d.toNat + n) 0xFFFFFFFF)

/-- The deficits of a core that consumes `n` cycles (R155). -/
def addDeficits (k : CoreState) (n : Nat) : CoreState :=
  { k with
    cyclesUntilSh2Sync := satAdd k.cyclesUntilSh2Sync n
    cyclesUntilM68kSync := satAdd k.cyclesUntilM68kSync n }

/-- The clock of agent `t` moved by `n` local cycles (R155, R160). -/
def tick (t : Agent) (n : Nat) (s : State) : State :=
  setClk s t (s.clk.get t + BitVec.ofNat Config.clkBits (n * Config.scale t))

/-- `Advance(c, n)` for a core (R155). -/
def advanceCore (c : CoreId) (n : Nat) (s : State) : State :=
  let s1 := tick c.agent n s
  setCore s1 c (addDeficits (s1.cores.get c) n)

/-- The partners of the SH2 tier: the other core, then the audio engine (R156). -/
def sh2Partners (c : CoreId) : List Agent := [c.other.agent, .a]

/-- The SH2 deficit has reached its threshold (R156). -/
def sh2Due (k : CoreState) : Bool := decide (k.minCyclesBetweenSh2Syncs ≤ k.cyclesUntilSh2Sync)

/-- The M68K deficit has reached its threshold (R156). -/
def m68kDue (k : CoreState) : Bool := decide (k.minCyclesBetweenM68kSyncs ≤ k.cyclesUntilM68kSync)

/-- `SyncCheck(c)` (R156). -/
def syncCheck (c : CoreId) (s : State) : State :=
  let k := s.cores.get c
  let k' := { k with
    cyclesUntilSh2Sync := if sh2Due k then 0 else k.cyclesUntilSh2Sync
    cyclesUntilM68kSync := if m68kDue k then 0 else k.cyclesUntilM68kSync }
  setPend (setCore s c k') c.agent
    ((if sh2Due k then sh2Partners c else []) ++ (if m68kDue k then [.h] else []))

/-- The bus calls of one instruction in order, the waits added up: the core's new registers, the cycles
`n0 + W`, and the state (R150, R152). -/
def runProgram (c : CoreId) : CoreProgram → Nat → State → CoreRegs × Nat × State
  | .done r extra, w, s => (r, extra + 1 + w, s)
  | .read a n k, w, s =>
    let (v, w1, s1) := memRead c.init a n s
    runProgram c (k v w1) (w + w1) s1
  | .write a n v k, w, s =>
    let (w1, s1) := memWrite c.init a n v s
    runProgram c (k w1) (w + w1) s1

/-- The interrupt part of a normal step: the waits of the vector read and the state (R152). -/
def takeInterrupt (c : CoreId) (s : State) : Nat × State :=
  match irqQuery c s with
  | some src =>
    if Config.engineAccepts (s.cores.get c).regs (Config.irqLevel src) then irqDispatch c src s else (0, s)
  | none => (0, s)

/-- One of the instruction's own write calls makes the 0-to-1 edge of `adapterReset`, at which both cores are reloaded
(46_io_mailbox.md R341). -/
def reloadsDuring (c : CoreId) : CoreProgram → State → Bool
  | .done _ _, _ => false
  | .read a n k, s =>
    let (v, w, s1) := memRead c.init a n s
    reloadsDuring c (k v w) s1
  | .write a n v k, s =>
    let (w, s1) := memWrite c.init a n v s
    (!s.io.adapterReset && s1.io.adapterReset) || reloadsDuring c (k w) s1

/-- The registers a core ends its instruction with: those the engine gives (R152), or, where the instruction itself made
the edge of `adapterReset`, those loaded at that edge, which it keeps while the bit is 1 (R154, 46_io_mailbox.md R341).
DESIGN CHOICE (log entry 8), unsafe: the loaded registers stand also where the instruction clears the bit again before
it ends, since R341 lets the cores run on from the loaded program counter, and R152 would assign those of `Exec`. -/
def endRegs (c : CoreId) (reloaded : Bool) (r : CoreRegs) (s : State) : State :=
  if reloaded then s else setRegs s c r

/-- `NormalStep(c)`: the cycles consumed and the state (R152). -/
def normalStep (c : CoreId) (s : State) : Nat × State :=
  let (w, s1) := takeInterrupt c s
  let prog := Config.engineExec (s1.cores.get c).regs
  let (r, n, s2) := runProgram c prog w s1
  (n, endRegs c (reloadsDuring c prog s1) r s2)

/-- The body of `CORE_STEP`: held, gated or normal, in this order (R151, R152, R153, R154). -/
def coreBody (c : CoreId) (s : State) : Nat × State :=
  if s.io.adapterReset then (Config.idleCycles, s)
  else if s.dreq.active then (1, s)
  else normalStep c s

/-- `CORE_STEP(c)` (R151). -/
def coreStep (c : CoreId) (s : State) : State :=
  let (n, s1) := coreBody c s
  syncCheck c (advanceCore c n s1)

/-- `SYNC_RESOLVE(t)` with `pend[t] = p :: rest` (R157). -/
def syncResolve (t p : Agent) (rest : List Agent) (s : State) : State :=
  if s.alive p && decide (s.clk.get p < s.clk.get t) then { s with token := p } else setPend s t rest

/-- The sub-steps of `AUDIO_STEP` before the clock moves: PWM, then DREQ, then autofill (R158). -/
def audioBody (s : State) : State :=
  let s1 := pwmTimerStep s
  let s2 := if s1.dreq.active then dreqStep s1 else s1
  if s2.vdp.autofillActive then autofillStep s2 else s2

/-- `AUDIO_STEP` (R158). -/
def audioStep (s : State) : State := setPend (tick .a 1 (audioBody s)) .a [.m, .s, .h]

/-- The host may issue an operation: it holds the token and is not synchronising (R162). -/
def hostTurn (s : State) : Bool := s.token == .h && s.pend.h.isEmpty

/-- A core may step (R151). -/
def coreEnabled (c : CoreId) (s : State) : Bool :=
  s.token == c.agent && s.alive c.agent && (s.pend.get c.agent).isEmpty

/-- The audio engine may step (R158). -/
def audioEnabled (s : State) : Bool := s.token == .a && s.aliveA && s.pend.a.isEmpty

/-! ### Power (70_reset_and_hazards.md) -/

/-- What memory holds after `POWER r`: the boot ROMs take the boot images; a cold power leaves nothing listed, so every
other byte is the free value of the new power-on; a warm one keeps the other memories (R390; log entries 10, 11). -/
def powerMem (r : Bool) (s : State) : Memory := if r then s.mem.filter (fun c => !isBootLoc c.1) else []

/-- `POWER r` before the cores' registers are loaded (R390): every field of spec/10_state.md at its reset value. The
host's operations and the caller's buffer are not the block's (log entries 1, 16). -/
def powerFields (r : Bool) (s : State) : State :=
  { State.reset with
    mem := powerMem r s
    powerOns := if r then s.powerOns else s.powerOns + 1
    ops := s.ops
    pixels := s.pixels }

/-- `POWER r` (R390, R391). -/
def power (r : Bool) (s : State) : State := loadEntry .s (loadEntry .m (powerFields r s))

/-- `RESTART` (R395), by its pseudocode. DESIGN CHOICE (log entry 30), unsafe: it is the same before any `POWER`, where
the corner case of R395 says that it only sets the token, while `pend` and `io.resetEnable` may have any value (U14). -/
def restart (s : State) : State :=
  let s1 := { s with pend := ⟨[], [], [], []⟩, token := .h }
  if s1.io.resetEnable then irqRaiseBoth .vres s1 else s1

/-- `UNLOAD`: slave, master, audio, in this order (R396). -/
def unload (s : State) : State :=
  let s1 := setPend { s with aliveS := false } .s []
  let s2 := setPend { s1 with aliveM := false } .m []
  let s3 := setPend { s2 with aliveA := false } .a []
  { setPend s3 .h [] with token := .h }

/-! ### How a meaning ends -/

/-- A meaning that runs where its condition holds and is refused where the operation is not enabled
(40_scheduler.md R159, R162; 93_implementation_defined.md U13). -/
def whenEnabled (ok : Bool) (s : State) : Host.Outcome State Fault Refusal :=
  if ok then .next s else .refused .notEnabled

/-- A transaction of the host waits for the host's turn (40_scheduler.md R162); one of a core or of DREQ is made inside
a normal `CORE_STEP` or `DREQ_STEP`, whose own conditions were tested where it began (41_bus.md R204), and a presented word of
one is held to that by `mayPerform` in Machine/Scheduler.lean (log entry 4). -/
def initiatorReady (i : Initiator) (s : State) : Bool := i != .h || hostTurn s

/-- A read transaction as an operation (41_bus.md R190). -/
def transactRead (i : Initiator) (l : Lanes) (t : Target) (s : State) : Host.Outcome State Fault Refusal :=
  let (v, w, s1) := readAt i l t s
  whenEnabled (initiatorReady i s) (setResult s1 (.bus v w))

/-- A write transaction as an operation (41_bus.md R190). -/
def transactWrite (i : Initiator) (l : Lanes) (t : Target) (d : Word) (s : State) :
    Host.Outcome State Fault Refusal :=
  let (w, s1) := writeAt i l t d s
  whenEnabled (initiatorReady i s) (setResult s1 (.bus 0 w))

/-- A host event as an operation (40_scheduler.md R162). -/
def hostEvent (s s' : State) : Host.Outcome State Fault Refusal :=
  whenEnabled (hostTurn s) (setResult s' .none)

/-- A sub-procedure that returns nothing, as an operation (30_encoding.md R125; log entry 4). -/
def procedure (s' : State) : Host.Outcome State Fault Refusal := .next (setResult s' .none)

/-- `raise BusContractViolation(info)`: the operation ends with the fault and no state changes (60_exceptions.md
R360). -/
def raiseBusContractViolation (i : Initiator) (rw : Dir) (a : Long) : Host.Outcome State Fault Refusal :=
  .fault (.busContractViolation i rw a)

end Sys2Proof.Machine
end

