-- ==== Sys2Proof/Machine/Bus.lean ====
section
/-! DEFINITION. The meanings of the bus transactions and of the memory windows (spec/41_bus.md). -/

namespace Sys2Proof.Machine

/-- `RD16`: word read (41_bus.md R190). -/
def execRd16 (i : Initiator) (a : Long) (s : State) : Host.Outcome State Fault Refusal :=
  transactRead i .word (targetOf i a) s

/-- `RD8U`: byte read of the even byte (41_bus.md R191). -/
def execRd8u (i : Initiator) (a : Long) (s : State) : Host.Outcome State Fault Refusal :=
  transactRead i .upper (targetOf i a) s

/-- `RD8L`: byte read of the odd byte (41_bus.md R192). -/
def execRd8l (i : Initiator) (a : Long) (s : State) : Host.Outcome State Fault Refusal :=
  transactRead i .lower (targetOf i a) s

/-- `WR16`: word write (41_bus.md R193). -/
def execWr16 (i : Initiator) (a : Long) (d : Word) (s : State) : Host.Outcome State Fault Refusal :=
  transactWrite i .word (targetOf i a) d s

/-- `WR8U`: byte write of the even byte (41_bus.md R194). -/
def execWr8u (i : Initiator) (a : Long) (d : Word) (s : State) : Host.Outcome State Fault Refusal :=
  transactWrite i .upper (targetOf i a) d s

/-- `WR8L`: byte write of the odd byte (41_bus.md R195). -/
def execWr8l (i : Initiator) (a : Long) (d : Word) (s : State) : Host.Outcome State Fault Refusal :=
  transactWrite i .lower (targetOf i a) d s

/-- `BUS_NO_LANE`: the one fault of the block (60_exceptions.md R360, 30_encoding.md R128). It is tested before
decoding, for every initiator, every address and both directions. -/
def execBusNoLane (i : Initiator) (rw : Dir) (a : Long) (_s : State) : Host.Outcome State Fault Refusal :=
  raiseBusContractViolation i rw a

/-- `BOOTROM` read: the word of the core's own boot ROM, mirrored (20_memory.md R85, 41_bus.md R198). -/
def execBootromRd (c : CoreId) (l : Lanes) (off : BitVec 14) (s : State) : Host.Outcome State Fault Refusal :=
  transactRead c.init l (.bootrom c (off.toNat / 2 % Config.bootromWords c)) s

/-- `BOOTROM` write: ignored (20_memory.md R85, 41_bus.md R198). -/
def execBootromWr (c : CoreId) (l : Lanes) (off : BitVec 14) (d : Word) (s : State) : Host.Outcome State Fault Refusal :=
  transactWrite c.init l (.bootrom c (off.toNat / 2 % Config.bootromWords c)) d s

/-- `PALETTE` read: `palette[offset >> 1]` (41_bus.md R201). -/
def execPaletteRd (i : Initiator) (l : Lanes) (off : BitVec 9) (s : State) : Host.Outcome State Fault Refusal :=
  transactRead i l (.palette (off.toNat / 2)) s

/-- `PALETTE` write: lane merge into `palette[offset >> 1]` (41_bus.md R201). -/
def execPaletteWr (i : Initiator) (l : Lanes) (off : BitVec 9) (d : Word) (s : State) : Host.Outcome State Fault Refusal :=
  transactWrite i l (.palette (off.toNat / 2)) d s

/-- `VRAM` read: `bbram[offset >> 1]`, the bank writable now (20_memory.md R86, 41_bus.md R200). -/
def execVramRd (i : Initiator) (l : Lanes) (off : BitVec 17) (s : State) : Host.Outcome State Fault Refusal :=
  transactRead i l (.vram (off.toNat / 2)) s

/-- `VRAM` write: lane merge into `bbram[offset >> 1]` (20_memory.md R86, 41_bus.md R200). -/
def execVramWr (i : Initiator) (l : Lanes) (off : BitVec 17) (d : Word) (s : State) : Host.Outcome State Fault Refusal :=
  transactWrite i l (.vram (off.toNat / 2)) d s

/-- `SDRAM_LO` read: `sdram[offset >> 1]` (41_bus.md R199). -/
def execSdramLoRd (i : Initiator) (l : Lanes) (off : BitVec 17) (s : State) : Host.Outcome State Fault Refusal :=
  transactRead i l (.sdram (off.toNat / 2)) s

/-- `SDRAM_LO` write: lane merge into `sdram[offset >> 1]` (41_bus.md R199). -/
def execSdramLoWr (i : Initiator) (l : Lanes) (off : BitVec 17) (d : Word) (s : State) : Host.Outcome State Fault Refusal :=
  transactWrite i l (.sdram (off.toNat / 2)) d s

/-- `SDRAM_HI` read: `sdram[0x10000 + (offset >> 1)]` (41_bus.md R199). -/
def execSdramHiRd (i : Initiator) (l : Lanes) (off : BitVec 17) (s : State) : Host.Outcome State Fault Refusal :=
  transactRead i l (.sdram (0x10000 + off.toNat / 2)) s

/-- `SDRAM_HI` write: lane merge into `sdram[0x10000 + (offset >> 1)]` (41_bus.md R199). -/
def execSdramHiWr (i : Initiator) (l : Lanes) (off : BitVec 17) (d : Word) (s : State) : Host.Outcome State Fault Refusal :=
  transactWrite i l (.sdram (0x10000 + off.toNat / 2)) d s

/-- `RESERVED` read: 0 (10_state.md R57, R61, R62; 30_encoding.md R130). -/
def execReservedRd (i : Initiator) (l : Lanes) (_off : BitVec 10) (s : State) : Host.Outcome State Fault Refusal :=
  transactRead i l .reserved s

/-- `RESERVED` write: ignored (10_state.md R57, R61, R62; 30_encoding.md R130). -/
def execReservedWr (i : Initiator) (l : Lanes) (_off : BitVec 10) (d : Word) (s : State) : Host.Outcome State Fault Refusal :=
  transactWrite i l .reserved d s

/-- `EXTERNAL` read: passed to the external space and logged, answered by the oracle (20_memory.md R88, 41_bus.md
R203). -/
def execExternalRd (i : Initiator) (l : Lanes) (a : Long) (s : State) : Host.Outcome State Fault Refusal :=
  transactRead i l (.external (evenAddr a)) s

/-- `EXTERNAL` write: passed to the external space and logged (20_memory.md R88, 41_bus.md R203). -/
def execExternalWr (i : Initiator) (l : Lanes) (a : Long) (d : Word) (s : State) : Host.Outcome State Fault Refusal :=
  transactWrite i l (.external (evenAddr a)) d s

end Sys2Proof.Machine
end

