-- ==== Sys2Proof/Machine/Dreq.lean ====
section
/-! DEFINITION. The meanings of the DREQ controller (spec/45_dreq.md). -/

namespace Sys2Proof.Machine

/-- `DREQCTL` read: vram, dma, active (45_dreq.md R320). -/
def execDreqctlRd (i : Initiator) (l : Lanes) (s : State) : Host.Outcome State Fault Refusal :=
  transactRead i l (.reg .dreqctl) s

/-- `DREQCTL` write: lower lane, not while active: the mode, and the start (45_dreq.md R320). -/
def execDreqctlWr (i : Initiator) (l : Lanes) (d : Word) (s : State) : Host.Outcome State Fault Refusal :=
  transactWrite i l (.reg .dreqctl) d s

/-- `DREQSRCH` read: the current value (45_dreq.md R321). -/
def execDreqsrchRd (i : Initiator) (l : Lanes) (s : State) : Host.Outcome State Fault Refusal :=
  transactRead i l (.reg .dreqsrch) s

/-- `DREQSRCH` write: lane merge, ignored while a transfer is active (45_dreq.md R321). -/
def execDreqsrchWr (i : Initiator) (l : Lanes) (d : Word) (s : State) : Host.Outcome State Fault Refusal :=
  transactWrite i l (.reg .dreqsrch) d s

/-- `DREQSRCL` read: the current value (45_dreq.md R321). -/
def execDreqsrclRd (i : Initiator) (l : Lanes) (s : State) : Host.Outcome State Fault Refusal :=
  transactRead i l (.reg .dreqsrcl) s

/-- `DREQSRCL` write: lane merge, ignored while a transfer is active (45_dreq.md R321). -/
def execDreqsrclWr (i : Initiator) (l : Lanes) (d : Word) (s : State) : Host.Outcome State Fault Refusal :=
  transactWrite i l (.reg .dreqsrcl) d s

/-- `DREQDSTH` read: the current value (45_dreq.md R321). -/
def execDreqdsthRd (i : Initiator) (l : Lanes) (s : State) : Host.Outcome State Fault Refusal :=
  transactRead i l (.reg .dreqdsth) s

/-- `DREQDSTH` write: lane merge, ignored while a transfer is active (45_dreq.md R321). -/
def execDreqdsthWr (i : Initiator) (l : Lanes) (d : Word) (s : State) : Host.Outcome State Fault Refusal :=
  transactWrite i l (.reg .dreqdsth) d s

/-- `DREQDSTL` read: the current value (45_dreq.md R321). -/
def execDreqdstlRd (i : Initiator) (l : Lanes) (s : State) : Host.Outcome State Fault Refusal :=
  transactRead i l (.reg .dreqdstl) s

/-- `DREQDSTL` write: lane merge, ignored while a transfer is active (45_dreq.md R321). -/
def execDreqdstlWr (i : Initiator) (l : Lanes) (d : Word) (s : State) : Host.Outcome State Fault Refusal :=
  transactWrite i l (.reg .dreqdstl) d s

/-- `DREQLEN` read: the current value (45_dreq.md R321). -/
def execDreqlenRd (i : Initiator) (l : Lanes) (s : State) : Host.Outcome State Fault Refusal :=
  transactRead i l (.reg .dreqlen) s

/-- `DREQLEN` write: lane merge, ignored while a transfer is active (45_dreq.md R321). -/
def execDreqlenWr (i : Initiator) (l : Lanes) (d : Word) (s : State) : Host.Outcome State Fault Refusal :=
  transactWrite i l (.reg .dreqlen) d s

/-- `DREQ_STEP`: one word moved, enabled while a transfer is active (45_dreq.md R323; log entry 5). -/
def execDreqStep (s : State) : Host.Outcome State Fault Refusal :=
  whenEnabled s.dreq.active (setResult (dreqStep s) .none)

end Sys2Proof.Machine
end

