-- ==== Sys2Proof/Machine/Interrupt.lean ====
section
/-! DEFINITION. The meanings of the interrupt controller (spec/42_interrupt.md). -/

namespace Sys2Proof.Machine

/-- `IRQEN` read: the five enables of the accessing core; 0 for H and DREQ (42_interrupt.md R221, R222). -/
def execIrqenRd (i : Initiator) (l : Lanes) (s : State) : Host.Outcome State Fault Refusal :=
  transactRead i l (.reg .irqen) s

/-- `IRQEN` write: lower lane: the five enables of the accessing core; ignored for H and DREQ (42_interrupt.md R221, R222). -/
def execIrqenWr (i : Initiator) (l : Lanes) (d : Word) (s : State) : Host.Outcome State Fault Refusal :=
  transactWrite i l (.reg .irqen) d s

/-- `IRQSTAT` read: the five active bits of the accessing core; 0 for H and DREQ (42_interrupt.md R222, R223). -/
def execIrqstatRd (i : Initiator) (l : Lanes) (s : State) : Host.Outcome State Fault Refusal :=
  transactRead i l (.reg .irqstat) s

/-- `IRQSTAT` write: read-only, the write is ignored (42_interrupt.md R223). -/
def execIrqstatWr (i : Initiator) (l : Lanes) (d : Word) (s : State) : Host.Outcome State Fault Refusal :=
  transactWrite i l (.reg .irqstat) d s

/-- `IRQACK` read: write-only, reads 0 (42_interrupt.md R224). -/
def execIrqackRd (i : Initiator) (l : Lanes) (s : State) : Host.Outcome State Fault Refusal :=
  transactRead i l (.reg .irqack) s

/-- `IRQACK` write: lower lane: each bit written 1 clears that active bit of the accessing core (42_interrupt.md R222, R224). -/
def execIrqackWr (i : Initiator) (l : Lanes) (d : Word) (s : State) : Host.Outcome State Fault Refusal :=
  transactWrite i l (.reg .irqack) d s

/-- `CMDREQ` read: bit 0 and bit 1 the `cmd` active bits of M and S (42_interrupt.md R229). -/
def execCmdreqRd (i : Initiator) (l : Lanes) (s : State) : Host.Outcome State Fault Refusal :=
  transactRead i l (.reg .cmdreq) s

/-- `CMDREQ` write: lower lane: bit 0 raises `cmd` on M, bit 1 on S (42_interrupt.md R229). -/
def execCmdreqWr (i : Initiator) (l : Lanes) (d : Word) (s : State) : Host.Outcome State Fault Refusal :=
  transactWrite i l (.reg .cmdreq) d s

/-- `IRQ_RAISE`: the source's `active` bit is set (42_interrupt.md R220). Who performs it does not matter. -/
def execIrqRaise (c : CoreId) (src : Source) (s : State) : Host.Outcome State Fault Refusal :=
  procedure (irqRaise c src s)

/-- `IRQ_QUERY` by M: the pending source of highest priority, or none; writes nothing (42_interrupt.md R225). -/
def execIrqQueryM (s : State) : Host.Outcome State Fault Refusal :=
  .next (setResult s (.query (irqQuery .m s)))

/-- `IRQ_QUERY` by S (42_interrupt.md R225). -/
def execIrqQueryS (s : State) : Host.Outcome State Fault Refusal :=
  .next (setResult s (.query (irqQuery .s s)))

/-- `IRQ_DISPATCH` by M: the core takes the source through the boot-vector table (42_interrupt.md R227). -/
def execIrqDispatchM (src : Source) (s : State) : Host.Outcome State Fault Refusal :=
  procedure (irqDispatch .m src s).2

/-- `IRQ_DISPATCH` by S (42_interrupt.md R227). -/
def execIrqDispatchS (src : Source) (s : State) : Host.Outcome State Fault Refusal :=
  procedure (irqDispatch .s src s).2

end Sys2Proof.Machine
end

