-- ==== Sys2Proof/Machine/Io.lean ====
section
/-! DEFINITION. The meanings of the IO control registers and the mailbox (spec/46_io_mailbox.md). -/

namespace Sys2Proof.Machine

/-- `ADAPTER` read: the five fields (46_io_mailbox.md R340). -/
def execAdapterRd (i : Initiator) (l : Lanes) (s : State) : Host.Outcome State Fault Refusal :=
  transactRead i l (.reg .adapter) s

/-- `ADAPTER` write: lower lane: the five fields; the 0-to-1 edge of `adapterReset` reloads both cores (46_io_mailbox.md R340, R341). -/
def execAdapterWr (i : Initiator) (l : Lanes) (d : Word) (s : State) : Host.Outcome State Fault Refusal :=
  transactWrite i l (.reg .adapter) d s

/-- `HPERIOD` read: `io.hperiod` (46_io_mailbox.md R342). -/
def execHperiodRd (i : Initiator) (l : Lanes) (s : State) : Host.Outcome State Fault Refusal :=
  transactRead i l (.reg .hperiod) s

/-- `HPERIOD` write: lane merge into `io.hperiod` (46_io_mailbox.md R342). -/
def execHperiodWr (i : Initiator) (l : Lanes) (d : Word) (s : State) : Host.Outcome State Fault Refusal :=
  transactWrite i l (.reg .hperiod) d s

/-- `HCOUNTER` read: `io.hcounter` (46_io_mailbox.md R343). -/
def execHcounterRd (i : Initiator) (l : Lanes) (s : State) : Host.Outcome State Fault Refusal :=
  transactRead i l (.reg .hcounter) s

/-- `HCOUNTER` write: read-only, the write is ignored (46_io_mailbox.md R343). -/
def execHcounterWr (i : Initiator) (l : Lanes) (d : Word) (s : State) : Host.Outcome State Fault Refusal :=
  transactWrite i l (.reg .hcounter) d s

/-- `MBOX0` read: `mailbox[0]` (46_io_mailbox.md R345). -/
def execMbox0Rd (i : Initiator) (l : Lanes) (s : State) : Host.Outcome State Fault Refusal :=
  transactRead i l (.reg (.mbox 0)) s

/-- `MBOX0` write: lane merge into `mailbox[0]` (46_io_mailbox.md R345). -/
def execMbox0Wr (i : Initiator) (l : Lanes) (d : Word) (s : State) : Host.Outcome State Fault Refusal :=
  transactWrite i l (.reg (.mbox 0)) d s

/-- `MBOX1` read: `mailbox[1]` (46_io_mailbox.md R345). -/
def execMbox1Rd (i : Initiator) (l : Lanes) (s : State) : Host.Outcome State Fault Refusal :=
  transactRead i l (.reg (.mbox 1)) s

/-- `MBOX1` write: lane merge into `mailbox[1]` (46_io_mailbox.md R345). -/
def execMbox1Wr (i : Initiator) (l : Lanes) (d : Word) (s : State) : Host.Outcome State Fault Refusal :=
  transactWrite i l (.reg (.mbox 1)) d s

/-- `MBOX2` read: `mailbox[2]` (46_io_mailbox.md R345). -/
def execMbox2Rd (i : Initiator) (l : Lanes) (s : State) : Host.Outcome State Fault Refusal :=
  transactRead i l (.reg (.mbox 2)) s

/-- `MBOX2` write: lane merge into `mailbox[2]` (46_io_mailbox.md R345). -/
def execMbox2Wr (i : Initiator) (l : Lanes) (d : Word) (s : State) : Host.Outcome State Fault Refusal :=
  transactWrite i l (.reg (.mbox 2)) d s

/-- `MBOX3` read: `mailbox[3]` (46_io_mailbox.md R345). -/
def execMbox3Rd (i : Initiator) (l : Lanes) (s : State) : Host.Outcome State Fault Refusal :=
  transactRead i l (.reg (.mbox 3)) s

/-- `MBOX3` write: lane merge into `mailbox[3]` (46_io_mailbox.md R345). -/
def execMbox3Wr (i : Initiator) (l : Lanes) (d : Word) (s : State) : Host.Outcome State Fault Refusal :=
  transactWrite i l (.reg (.mbox 3)) d s

/-- `MBOX4` read: `mailbox[4]` (46_io_mailbox.md R345). -/
def execMbox4Rd (i : Initiator) (l : Lanes) (s : State) : Host.Outcome State Fault Refusal :=
  transactRead i l (.reg (.mbox 4)) s

/-- `MBOX4` write: lane merge into `mailbox[4]` (46_io_mailbox.md R345). -/
def execMbox4Wr (i : Initiator) (l : Lanes) (d : Word) (s : State) : Host.Outcome State Fault Refusal :=
  transactWrite i l (.reg (.mbox 4)) d s

/-- `MBOX5` read: `mailbox[5]` (46_io_mailbox.md R345). -/
def execMbox5Rd (i : Initiator) (l : Lanes) (s : State) : Host.Outcome State Fault Refusal :=
  transactRead i l (.reg (.mbox 5)) s

/-- `MBOX5` write: lane merge into `mailbox[5]` (46_io_mailbox.md R345). -/
def execMbox5Wr (i : Initiator) (l : Lanes) (d : Word) (s : State) : Host.Outcome State Fault Refusal :=
  transactWrite i l (.reg (.mbox 5)) d s

/-- `MBOX6` read: `mailbox[6]` (46_io_mailbox.md R345). -/
def execMbox6Rd (i : Initiator) (l : Lanes) (s : State) : Host.Outcome State Fault Refusal :=
  transactRead i l (.reg (.mbox 6)) s

/-- `MBOX6` write: lane merge into `mailbox[6]` (46_io_mailbox.md R345). -/
def execMbox6Wr (i : Initiator) (l : Lanes) (d : Word) (s : State) : Host.Outcome State Fault Refusal :=
  transactWrite i l (.reg (.mbox 6)) d s

/-- `MBOX7` read: `mailbox[7]` (46_io_mailbox.md R345). -/
def execMbox7Rd (i : Initiator) (l : Lanes) (s : State) : Host.Outcome State Fault Refusal :=
  transactRead i l (.reg (.mbox 7)) s

/-- `MBOX7` write: lane merge into `mailbox[7]` (46_io_mailbox.md R345). -/
def execMbox7Wr (i : Initiator) (l : Lanes) (d : Word) (s : State) : Host.Outcome State Fault Refusal :=
  transactWrite i l (.reg (.mbox 7)) d s

end Sys2Proof.Machine
end

