-- ==== Sys2Proof/Machine/Pwm.lean ====
section
/-! DEFINITION. The meanings of the PWM audio pipeline (spec/44_pwm.md). -/

namespace Sys2Proof.Machine

/-- `PWMCTL` read: the fields at their positions (44_pwm.md R290). -/
def execPwmctlRd (i : Initiator) (l : Lanes) (s : State) : Host.Outcome State Fault Refusal :=
  transactRead i l (.reg .pwmctl) s

/-- `PWMCTL` write: lower lane: modes and flags; upper lane: timer, `periods`, `counter` cleared (44_pwm.md R290). -/
def execPwmctlWr (i : Initiator) (l : Lanes) (d : Word) (s : State) : Host.Outcome State Fault Refusal :=
  transactWrite i l (.reg .pwmctl) d s

/-- `PWMCYC` read: `pwm.cycle` (44_pwm.md R292). -/
def execPwmcycRd (i : Initiator) (l : Lanes) (s : State) : Host.Outcome State Fault Refusal :=
  transactRead i l (.reg .pwmcyc) s

/-- `PWMCYC` write: lane merge into bits 11:0 (44_pwm.md R292). -/
def execPwmcycWr (i : Initiator) (l : Lanes) (d : Word) (s : State) : Host.Outcome State Fault Refusal :=
  transactWrite i l (.reg .pwmcyc) d s

/-- `PWML` read: bit 15 full, bit 14 empty; no dequeue (44_pwm.md R294). -/
def execPwmlRd (i : Initiator) (l : Lanes) (s : State) : Host.Outcome State Fault Refusal :=
  transactRead i l (.reg .pwml) s

/-- `PWML` write: both lanes: `FIFO_WRITE(L, data[11:0])`; one lane: ignored (44_pwm.md R293). -/
def execPwmlWr (i : Initiator) (l : Lanes) (d : Word) (s : State) : Host.Outcome State Fault Refusal :=
  transactWrite i l (.reg .pwml) d s

/-- `PWMR` read: bit 15 full, bit 14 empty; no dequeue (44_pwm.md R294). -/
def execPwmrRd (i : Initiator) (l : Lanes) (s : State) : Host.Outcome State Fault Refusal :=
  transactRead i l (.reg .pwmr) s

/-- `PWMR` write: both lanes: `FIFO_WRITE(R, data[11:0])`; one lane: ignored (44_pwm.md R293). -/
def execPwmrWr (i : Initiator) (l : Lanes) (d : Word) (s : State) : Host.Outcome State Fault Refusal :=
  transactWrite i l (.reg .pwmr) d s

/-- `PWM_TIMER_STEP` (44_pwm.md R300). -/
def execPwmTimerStep (s : State) : Host.Outcome State Fault Refusal :=
  procedure (pwmTimerStep s)

/-- `SAMPLE_TICK` (44_pwm.md R301). -/
def execSampleTick (s : State) : Host.Outcome State Fault Refusal :=
  procedure (sampleTick s)

/-- `FIFO_WRITE` (44_pwm.md R295). Who performs it does not matter. -/
def execFifoWrite (ch : Channel) (sample : BitVec 12) (s : State) : Host.Outcome State Fault Refusal :=
  procedure (fifoWrite ch sample s)

/-- `FIFO_READ`: returns the sample and whether the FIFO was emptied (44_pwm.md R296). -/
def execFifoRead (ch : Channel) (s : State) : Host.Outcome State Fault Refusal :=
  let (v, emptied, s1) := fifoRead ch s
  .next (setResult s1 (.sample v emptied))

/-- `FIFO_DRAIN`: returns the sample and whether the FIFO was emptied (44_pwm.md R297). -/
def execFifoDrain (ch : Channel) (s : State) : Host.Outcome State Fault Refusal :=
  let (v, emptied, s1) := fifoDrain ch s
  .next (setResult s1 (.sample v emptied))

end Sys2Proof.Machine
end

