-- ==== Sys2Proof/Machine/Reset.lean ====
section
/-! DEFINITION. The meanings of the reset operations (spec/70_reset_and_hazards.md). -/

namespace Sys2Proof.Machine

/-- `POWER r` (70_reset_and_hazards.md R390, R391). -/
def execPower (reset : Bool) (s : State) : Host.Outcome State Fault Refusal :=
  hostEvent s (power reset s)

/-- `RESTART` (70_reset_and_hazards.md R395). -/
def execRestart (s : State) : Host.Outcome State Fault Refusal :=
  hostEvent s (restart s)

/-- `UNLOAD` (70_reset_and_hazards.md R396). -/
def execUnload (s : State) : Host.Outcome State Fault Refusal :=
  hostEvent s (unload s)

end Sys2Proof.Machine
end

