-- ==== Sys2Proof/Machine/Scheduler.lean ====
section
/-! DEFINITION. The meanings of the scheduler (spec/40_scheduler.md); which internal step is enabled, and where a presented
operation may be performed. -/

namespace Sys2Proof.Machine

/-- `CORE_STEP` of the master: enabled when it holds the token, exists and is not synchronising
(40_scheduler.md R151). -/
def execCoreStepM (s : State) : Host.Outcome State Fault Refusal :=
  whenEnabled (coreEnabled .m s) (setResult (coreStep .m s) .none)

/-- `CORE_STEP` of the slave (40_scheduler.md R151). -/
def execCoreStepS (s : State) : Host.Outcome State Fault Refusal :=
  whenEnabled (coreEnabled .s s) (setResult (coreStep .s s) .none)

/-- `SYNC_RESOLVE` by `t`: enabled when `t` holds the token and has a partner queued (40_scheduler.md R157), and exists:
a thread with `alive` 0 has no step (10_state.md R28; 93_implementation_defined.md U13; log entry 29). -/
def execSyncResolve (t : Agent) (s : State) : Host.Outcome State Fault Refusal :=
  match s.pend.get t with
  | p :: rest => whenEnabled (s.token == t && s.alive t) (setResult (syncResolve t p rest s) .none)
  | [] => .refused .notEnabled

/-- `AUDIO_STEP`: enabled when the audio engine holds the token, exists and is not synchronising
(40_scheduler.md R158). -/
def execAudioStep (s : State) : Host.Outcome State Fault Refusal :=
  whenEnabled (audioEnabled s) (setResult (audioStep s) .none)

/-- `HOST_ADVANCE n` (40_scheduler.md R160). -/
def execHostAdvance (n : BitVec 32) (s : State) : Host.Outcome State Fault Refusal :=
  hostEvent s (tick .h n.toNat s)

/-- `HOST_SYNC` (40_scheduler.md R161). -/
def execHostSync (s : State) : Host.Outcome State Fault Refusal :=
  hostEvent s (setPend s .h [.m, .s, .a])

/-! ### Which step is next, and where an operation is performed -/

/-- The internal step of rule R159: at any moment exactly one or none, given by the token holder. None is enabled inside
an operation, nor while the holder does not exist (10_state.md R28; log entry 29). -/
def internalStep (s : State) : Option Instr :=
  if s.inside.isNone && s.alive s.token then
    match s.pend.get s.token, s.token with
    | _ :: _, t => some (.syncResolve t)
    | [], .m => some .coreStepM
    | [], .s => some .coreStepS
    | [], .a => some .audioStep
    | [], .h => none
  else none

/-- Where an operation is performed. -/
inductive Place where
  /-- It is tested before anything else, wherever it stands (60_exceptions.md R360). -/
  | anywhere
  /-- It is an operation of its own. -/
  | alone
  /-- It is performed inside one of these operations. -/
  | within (l : List Operation)
deriving DecidableEq, Repr

/-- A transaction of a core is made only from inside its normal `CORE_STEP`, one of DREQ only from inside `DREQ_STEP`, and
one of the host is a host operation (41_bus.md R204). -/
def initiatorPlace : Initiator → Place
  | .h => .alone
  | .m => .within [.normalStep .m]
  | .s => .within [.normalStep .s]
  | .dreq => .within [.dreqStep]

/-- The operation inside which an agent makes bus transactions (41_bus.md R204). -/
def busCaller : Agent → Operation
  | .h => .host
  | .m => .normalStep .m
  | .s => .normalStep .s
  | .a => .dreqStep

/-- The operations of an agent that call others. -/
def callers : Agent → List Operation
  | .a => [.audioStep, .dreqStep]
  | .h => [.host]
  | .m => [.normalStep .m]
  | .s => [.normalStep .s]

/-- Events, schedulable steps and the host's transactions stand alone (40_scheduler.md R162; 30_encoding.md R125);
transactions of the others stand where 41_bus.md R204 says; a sub-procedure stands inside the operations of its performer,
the field `thr` (30_encoding.md R123, R125), that call it: a write of `PWML`, `PWMR` or `FBCTL` for `FIFO_WRITE` and
`SELECT_FB` (44_pwm.md R293, 43_vdp.md R246), the places of 42_interrupt.md R230 and 43_vdp.md R247 for `IRQ_RAISE` and
`FB_COMMIT`, the normal step for `IRQ_QUERY` and `IRQ_DISPATCH` (40_scheduler.md R152), `VBLANK` for `LATCH_COMMIT`
(43_vdp.md R250), `AUDIO_STEP` for the parts of it (40_scheduler.md R158). -/
def instrPlace : Instr → Place
  | .busNoLane _ _ _ _ => .anywhere
  | .rd16 i _ | .rd8u i _ | .rd8l i _ | .wr16 i _ _ | .wr8u i _ _ | .wr8l i _ _ | .irqenRd i _ | .irqenWr i _ _
  | .irqstatRd i _ | .irqstatWr i _ _ | .irqackRd i _ | .irqackWr i _ _ | .adapterRd i _ | .adapterWr i _ _
  | .hperiodRd i _ | .hperiodWr i _ _ | .hcounterRd i _ | .hcounterWr i _ _ | .cmdreqRd i _ | .cmdreqWr i _ _
  | .mbox0Rd i _ | .mbox0Wr i _ _ | .mbox1Rd i _ | .mbox1Wr i _ _ | .mbox2Rd i _ | .mbox2Wr i _ _
  | .mbox3Rd i _ | .mbox3Wr i _ _ | .mbox4Rd i _ | .mbox4Wr i _ _ | .mbox5Rd i _ | .mbox5Wr i _ _
  | .mbox6Rd i _ | .mbox6Wr i _ _ | .mbox7Rd i _ | .mbox7Wr i _ _ | .pwmctlRd i _ | .pwmctlWr i _ _
  | .pwmcycRd i _ | .pwmcycWr i _ _ | .pwmlRd i _ | .pwmlWr i _ _ | .pwmrRd i _ | .pwmrWr i _ _
  | .dreqctlRd i _ | .dreqctlWr i _ _ | .dreqsrchRd i _ | .dreqsrchWr i _ _ | .dreqsrclRd i _
  | .dreqsrclWr i _ _ | .dreqdsthRd i _ | .dreqdsthWr i _ _ | .dreqdstlRd i _ | .dreqdstlWr i _ _
  | .dreqlenRd i _ | .dreqlenWr i _ _ | .vdpmodeRd i _ | .vdpmodeWr i _ _ | .vdpshiftRd i _ | .vdpshiftWr i _ _
  | .aflenRd i _ | .aflenWr i _ _ | .afaddrRd i _ | .afaddrWr i _ _ | .afdataRd i _ | .afdataWr i _ _
  | .fbctlRd i _ | .fbctlWr i _ _ | .paletteRd i _ _ | .vramRd i _ _ | .sdramLoRd i _ _ | .sdramHiRd i _ _
  | .reservedRd i _ _ | .externalRd i _ _ | .paletteWr i _ _ _ | .vramWr i _ _ _ | .sdramLoWr i _ _ _
  | .sdramHiWr i _ _ _ | .reservedWr i _ _ _ | .externalWr i _ _ _ => initiatorPlace i
  | .bootromRd c _ _ | .bootromWr c _ _ _ => initiatorPlace c.init
  | .power _ | .restart | .unload | .vblank _ | .hblank _ | .scanline _ | .hostAdvance _ | .hostSync
  | .coreStepM | .coreStepS | .syncResolve _ | .audioStep => .alone
  | .fifoWrite thr _ _ | .selectFb thr _ => .within [busCaller thr]
  | .irqRaise thr _ _ | .fbCommit thr => .within (callers thr)
  | .latchCommit => .within [.host]
  | .irqQueryM | .irqDispatchM _ => .within [.normalStep .m]
  | .irqQueryS | .irqDispatchS _ => .within [.normalStep .s]
  | .pwmTimerStep | .sampleTick | .fifoRead _ | .fifoDrain _ | .dreqStep | .autofillStep => .within [.audioStep]

/-- The operation can be in progress in this state. What enabled it still holds: its agent holds the token, exists and is
not synchronising (40_scheduler.md R151, R158, R162), and `DREQ_STEP` moves a word of an active transfer (45_dreq.md R323).
The gate of a normal step was tested where it began and is not tested again: the instruction itself may have raised
`adapterReset` or started a transfer (41_bus.md R204). -/
def canBeInside (op : Operation) (s : State) : Bool :=
  match op with
  | .host => hostTurn s
  | .normalStep c => coreEnabled c s
  | .audioStep => audioEnabled s
  | .dreqStep => audioEnabled s && s.dreq.active

/-- A presented word of this place may be performed now (41_bus.md R204; log entry 4). -/
def mayPerform (p : Place) (s : State) : Bool :=
  match p, s.inside with
  | .anywhere, _ => true
  | .alone, none => true
  | .alone, some _ => false
  | .within _, none => false
  | .within l, some op => l.contains op && canBeInside op s

end Sys2Proof.Machine
end

