-- ==== Sys2Proof/Machine/Vdp.lean ====
section
/-! DEFINITION. The meanings of the VDP framebuffer engine (spec/43_vdp.md). -/

namespace Sys2Proof.Machine

/-- `VDPMODE` read: the live mode, lines, priority (43_vdp.md R240). -/
def execVdpmodeRd (i : Initiator) (l : Lanes) (s : State) : Host.Outcome State Fault Refusal :=
  transactRead i l (.reg .vdpmode) s

/-- `VDPMODE` write: lower lane: the live mode, lines, priority (43_vdp.md R240). -/
def execVdpmodeWr (i : Initiator) (l : Lanes) (d : Word) (s : State) : Host.Outcome State Fault Refusal :=
  transactWrite i l (.reg .vdpmode) d s

/-- `VDPSHIFT` read: the live dotshift (43_vdp.md R241). -/
def execVdpshiftRd (i : Initiator) (l : Lanes) (s : State) : Host.Outcome State Fault Refusal :=
  transactRead i l (.reg .vdpshift) s

/-- `VDPSHIFT` write: lower lane: the live dotshift (43_vdp.md R241). -/
def execVdpshiftWr (i : Initiator) (l : Lanes) (d : Word) (s : State) : Host.Outcome State Fault Refusal :=
  transactWrite i l (.reg .vdpshift) d s

/-- `AFLEN` read: `vdp.autofillLength` (43_vdp.md R242). -/
def execAflenRd (i : Initiator) (l : Lanes) (s : State) : Host.Outcome State Fault Refusal :=
  transactRead i l (.reg .aflen) s

/-- `AFLEN` write: lower lane, not while a fill is active (43_vdp.md R242). -/
def execAflenWr (i : Initiator) (l : Lanes) (d : Word) (s : State) : Host.Outcome State Fault Refusal :=
  transactWrite i l (.reg .aflen) d s

/-- `AFADDR` read: `vdp.autofillAddress`, which runs (43_vdp.md R243). -/
def execAfaddrRd (i : Initiator) (l : Lanes) (s : State) : Host.Outcome State Fault Refusal :=
  transactRead i l (.reg .afaddr) s

/-- `AFADDR` write: lane merge, not while a fill is active (43_vdp.md R243). -/
def execAfaddrWr (i : Initiator) (l : Lanes) (d : Word) (s : State) : Host.Outcome State Fault Refusal :=
  transactWrite i l (.reg .afaddr) d s

/-- `AFDATA` read: `vdp.autofillData` (43_vdp.md R244). -/
def execAfdataRd (i : Initiator) (l : Lanes) (s : State) : Host.Outcome State Fault Refusal :=
  transactRead i l (.reg .afdata) s

/-- `AFDATA` write: lane merge and the start of the fill, not while one is active (43_vdp.md R244). -/
def execAfdataWr (i : Initiator) (l : Lanes) (d : Word) (s : State) : Host.Outcome State Fault Refusal :=
  transactWrite i l (.reg .afdata) d s

/-- `FBCTL` read: bank, engagement, fill, request and blanking bits (43_vdp.md R245). -/
def execFbctlRd (i : Initiator) (l : Lanes) (s : State) : Host.Outcome State Fault Refusal :=
  transactRead i l (.reg .fbctl) s

/-- `FBCTL` write: lower lane: `SELECT_FB data[0]` (43_vdp.md R246). -/
def execFbctlWr (i : Initiator) (l : Lanes) (d : Word) (s : State) : Host.Outcome State Fault Refusal :=
  transactWrite i l (.reg .fbctl) d s

/-- `VBLANK b` (43_vdp.md R250). -/
def execVblank (level : Bool) (s : State) : Host.Outcome State Fault Refusal :=
  hostEvent s (vblankEvent level s)

/-- `HBLANK b` (43_vdp.md R251). -/
def execHblank (level : Bool) (s : State) : Host.Outcome State Fault Refusal :=
  hostEvent s (hblankEvent level s)

/-- `SCANLINE y`: the caller's buffer is returned; no state of the block changes (43_vdp.md R256). -/
def execScanline (y : BitVec 9) (s : State) : Host.Outcome State Fault Refusal :=
  hostEvent s (show State from { s with pixels := scanlineOf s y.toNat s.pixels })

/-- `AUTOFILL_STEP`: one word written, enabled while a fill is active (43_vdp.md R249; log entry 5). -/
def execAutofillStep (s : State) : Host.Outcome State Fault Refusal :=
  whenEnabled s.vdp.autofillActive (setResult (autofillStep s) .none)

/-- `LATCH_COMMIT` (43_vdp.md R252). -/
def execLatchCommit (s : State) : Host.Outcome State Fault Refusal :=
  procedure (latchCommit s)

/-- `FB_COMMIT` (43_vdp.md R247). Who performs it does not matter. -/
def execFbCommit (s : State) : Host.Outcome State Fault Refusal :=
  procedure (fbCommit s)

/-- `SELECT_FB v` (43_vdp.md R246). Who performs it does not matter. -/
def execSelectFb (bank : Bool) (s : State) : Host.Outcome State Fault Refusal :=
  procedure (selectFb bank s)

end Sys2Proof.Machine
end

