-- ==== Sys2Proof/Machine/Dispatch.lean ====
section
/-! DEFINITION. `exec`: one arm per constructor of `Instr`, each one direct call of the operation's meaning. -/

namespace Sys2Proof.Machine

def exec (i : Instr) (s : State) : Host.Outcome State Fault Refusal :=
  match i with
  | .rd16 who a => Sys2Proof.Machine.execRd16 who a s
  | .rd8u who a => Sys2Proof.Machine.execRd8u who a s
  | .rd8l who a => Sys2Proof.Machine.execRd8l who a s
  | .wr16 who a d => Sys2Proof.Machine.execWr16 who a d s
  | .wr8u who a d => Sys2Proof.Machine.execWr8u who a d s
  | .wr8l who a d => Sys2Proof.Machine.execWr8l who a d s
  | .busNoLane who rw a _ => Sys2Proof.Machine.execBusNoLane who rw a s
  | .irqenRd who l => Sys2Proof.Machine.execIrqenRd who l s
  | .irqenWr who l d => Sys2Proof.Machine.execIrqenWr who l d s
  | .irqstatRd who l => Sys2Proof.Machine.execIrqstatRd who l s
  | .irqstatWr who l d => Sys2Proof.Machine.execIrqstatWr who l d s
  | .irqackRd who l => Sys2Proof.Machine.execIrqackRd who l s
  | .irqackWr who l d => Sys2Proof.Machine.execIrqackWr who l d s
  | .adapterRd who l => Sys2Proof.Machine.execAdapterRd who l s
  | .adapterWr who l d => Sys2Proof.Machine.execAdapterWr who l d s
  | .hperiodRd who l => Sys2Proof.Machine.execHperiodRd who l s
  | .hperiodWr who l d => Sys2Proof.Machine.execHperiodWr who l d s
  | .hcounterRd who l => Sys2Proof.Machine.execHcounterRd who l s
  | .hcounterWr who l d => Sys2Proof.Machine.execHcounterWr who l d s
  | .cmdreqRd who l => Sys2Proof.Machine.execCmdreqRd who l s
  | .cmdreqWr who l d => Sys2Proof.Machine.execCmdreqWr who l d s
  | .mbox0Rd who l => Sys2Proof.Machine.execMbox0Rd who l s
  | .mbox0Wr who l d => Sys2Proof.Machine.execMbox0Wr who l d s
  | .mbox1Rd who l => Sys2Proof.Machine.execMbox1Rd who l s
  | .mbox1Wr who l d => Sys2Proof.Machine.execMbox1Wr who l d s
  | .mbox2Rd who l => Sys2Proof.Machine.execMbox2Rd who l s
  | .mbox2Wr who l d => Sys2Proof.Machine.execMbox2Wr who l d s
  | .mbox3Rd who l => Sys2Proof.Machine.execMbox3Rd who l s
  | .mbox3Wr who l d => Sys2Proof.Machine.execMbox3Wr who l d s
  | .mbox4Rd who l => Sys2Proof.Machine.execMbox4Rd who l s
  | .mbox4Wr who l d => Sys2Proof.Machine.execMbox4Wr who l d s
  | .mbox5Rd who l => Sys2Proof.Machine.execMbox5Rd who l s
  | .mbox5Wr who l d => Sys2Proof.Machine.execMbox5Wr who l d s
  | .mbox6Rd who l => Sys2Proof.Machine.execMbox6Rd who l s
  | .mbox6Wr who l d => Sys2Proof.Machine.execMbox6Wr who l d s
  | .mbox7Rd who l => Sys2Proof.Machine.execMbox7Rd who l s
  | .mbox7Wr who l d => Sys2Proof.Machine.execMbox7Wr who l d s
  | .pwmctlRd who l => Sys2Proof.Machine.execPwmctlRd who l s
  | .pwmctlWr who l d => Sys2Proof.Machine.execPwmctlWr who l d s
  | .pwmcycRd who l => Sys2Proof.Machine.execPwmcycRd who l s
  | .pwmcycWr who l d => Sys2Proof.Machine.execPwmcycWr who l d s
  | .pwmlRd who l => Sys2Proof.Machine.execPwmlRd who l s
  | .pwmlWr who l d => Sys2Proof.Machine.execPwmlWr who l d s
  | .pwmrRd who l => Sys2Proof.Machine.execPwmrRd who l s
  | .pwmrWr who l d => Sys2Proof.Machine.execPwmrWr who l d s
  | .dreqctlRd who l => Sys2Proof.Machine.execDreqctlRd who l s
  | .dreqctlWr who l d => Sys2Proof.Machine.execDreqctlWr who l d s
  | .dreqsrchRd who l => Sys2Proof.Machine.execDreqsrchRd who l s
  | .dreqsrchWr who l d => Sys2Proof.Machine.execDreqsrchWr who l d s
  | .dreqsrclRd who l => Sys2Proof.Machine.execDreqsrclRd who l s
  | .dreqsrclWr who l d => Sys2Proof.Machine.execDreqsrclWr who l d s
  | .dreqdsthRd who l => Sys2Proof.Machine.execDreqdsthRd who l s
  | .dreqdsthWr who l d => Sys2Proof.Machine.execDreqdsthWr who l d s
  | .dreqdstlRd who l => Sys2Proof.Machine.execDreqdstlRd who l s
  | .dreqdstlWr who l d => Sys2Proof.Machine.execDreqdstlWr who l d s
  | .dreqlenRd who l => Sys2Proof.Machine.execDreqlenRd who l s
  | .dreqlenWr who l d => Sys2Proof.Machine.execDreqlenWr who l d s
  | .vdpmodeRd who l => Sys2Proof.Machine.execVdpmodeRd who l s
  | .vdpmodeWr who l d => Sys2Proof.Machine.execVdpmodeWr who l d s
  | .vdpshiftRd who l => Sys2Proof.Machine.execVdpshiftRd who l s
  | .vdpshiftWr who l d => Sys2Proof.Machine.execVdpshiftWr who l d s
  | .aflenRd who l => Sys2Proof.Machine.execAflenRd who l s
  | .aflenWr who l d => Sys2Proof.Machine.execAflenWr who l d s
  | .afaddrRd who l => Sys2Proof.Machine.execAfaddrRd who l s
  | .afaddrWr who l d => Sys2Proof.Machine.execAfaddrWr who l d s
  | .afdataRd who l => Sys2Proof.Machine.execAfdataRd who l s
  | .afdataWr who l d => Sys2Proof.Machine.execAfdataWr who l d s
  | .fbctlRd who l => Sys2Proof.Machine.execFbctlRd who l s
  | .fbctlWr who l d => Sys2Proof.Machine.execFbctlWr who l d s
  | .bootromRd c l off => Sys2Proof.Machine.execBootromRd c l off s
  | .paletteRd who l off => Sys2Proof.Machine.execPaletteRd who l off s
  | .vramRd who l off => Sys2Proof.Machine.execVramRd who l off s
  | .sdramLoRd who l off => Sys2Proof.Machine.execSdramLoRd who l off s
  | .sdramHiRd who l off => Sys2Proof.Machine.execSdramHiRd who l off s
  | .reservedRd who l off => Sys2Proof.Machine.execReservedRd who l off s
  | .externalRd who l a => Sys2Proof.Machine.execExternalRd who l a s
  | .bootromWr c l off d => Sys2Proof.Machine.execBootromWr c l off d s
  | .paletteWr who l off d => Sys2Proof.Machine.execPaletteWr who l off d s
  | .vramWr who l off d => Sys2Proof.Machine.execVramWr who l off d s
  | .sdramLoWr who l off d => Sys2Proof.Machine.execSdramLoWr who l off d s
  | .sdramHiWr who l off d => Sys2Proof.Machine.execSdramHiWr who l off d s
  | .reservedWr who l off d => Sys2Proof.Machine.execReservedWr who l off d s
  | .externalWr who l a d => Sys2Proof.Machine.execExternalWr who l a d s
  | .power reset => Sys2Proof.Machine.execPower reset s
  | .restart => Sys2Proof.Machine.execRestart s
  | .unload => Sys2Proof.Machine.execUnload s
  | .vblank level => Sys2Proof.Machine.execVblank level s
  | .hblank level => Sys2Proof.Machine.execHblank level s
  | .scanline y => Sys2Proof.Machine.execScanline y s
  | .hostAdvance n => Sys2Proof.Machine.execHostAdvance n s
  | .hostSync => Sys2Proof.Machine.execHostSync s
  | .coreStepM => Sys2Proof.Machine.execCoreStepM s
  | .coreStepS => Sys2Proof.Machine.execCoreStepS s
  | .syncResolve thr => Sys2Proof.Machine.execSyncResolve thr s
  | .audioStep => Sys2Proof.Machine.execAudioStep s
  | .pwmTimerStep => Sys2Proof.Machine.execPwmTimerStep s
  | .sampleTick => Sys2Proof.Machine.execSampleTick s
  | .fifoWrite _ ch sample => Sys2Proof.Machine.execFifoWrite ch sample s
  | .fifoRead ch => Sys2Proof.Machine.execFifoRead ch s
  | .fifoDrain ch => Sys2Proof.Machine.execFifoDrain ch s
  | .dreqStep => Sys2Proof.Machine.execDreqStep s
  | .autofillStep => Sys2Proof.Machine.execAutofillStep s
  | .irqRaise _ c src => Sys2Proof.Machine.execIrqRaise c src s
  | .irqQueryM => Sys2Proof.Machine.execIrqQueryM s
  | .irqQueryS => Sys2Proof.Machine.execIrqQueryS s
  | .irqDispatchM src => Sys2Proof.Machine.execIrqDispatchM src s
  | .irqDispatchS src => Sys2Proof.Machine.execIrqDispatchS src s
  | .latchCommit => Sys2Proof.Machine.execLatchCommit s
  | .fbCommit _ => Sys2Proof.Machine.execFbCommit s
  | .selectFb _ bank => Sys2Proof.Machine.execSelectFb bank s

end Sys2Proof.Machine
end

