-- ==== Sys2Proof/Machine/Step.lean ====
section
/-! DEFINITION. One step of the block: the internal step that is enabled (40_scheduler.md R159), else the next operation
the host has presented, where it may be performed (R162; 41_bus.md R204). -/

namespace Sys2Proof.Machine

/-- The next presented operation word decoded and performed, where it may be; it is taken off the list (log entries 1, 4,
20). -/
def hostStep (s : State) : Host.Outcome State Fault Refusal :=
  match s.ops with
  | [] => .refused .noOperation
  | w :: rest =>
    match decode w with
    | some i => if mayPerform (instrPlace i) s then exec i { s with ops := rest } else .refused .notEnabled
    | none => .refused .invalidWord

/-- One step (40_scheduler.md R159, R162). -/
def step (s : State) : Host.Outcome State Fault Refusal :=
  match internalStep s with
  | some i => exec i s
  | none => hostStep s

/-- The agent made the one whose schedulable step is next: it exists, holds the token, and is inside no operation. -/
def State.giveToken (s : State) (t : Agent) : State :=
  match t with
  | .h => { s with token := .h, inside := none }
  | .m => { s with token := .m, aliveM := true, inside := none }
  | .s => { s with token := .s, aliveS := true, inside := none }
  | .a => { s with token := .a, aliveA := true, inside := none }

/-- A queue of partners for a synchronisation: the one there is, else the first the agent would queue
(40_scheduler.md R156, R158, R161). -/
def somePartners (t : Agent) (l : List Agent) : List Agent :=
  match l, t with
  | _ :: _, _ => l
  | [], .h => [.m, .s, .a]
  | [], .m => [.s, .a]
  | [], .s => [.m, .a]
  | [], .a => [.m, .s, .h]

/-- A transfer made active, with at least one word left (45_dreq.md R323, R325). -/
def State.withTransfer (s : State) : State :=
  { s with dreq := { s.dreq with
    active := true, dma := true, length := if s.dreq.length = 0 then 1 else s.dreq.length } }

/-- A fill made active, with at least one word left (43_vdp.md R244, R249). -/
def State.withFill (s : State) : State :=
  { s with vdp := { s.vdp with
    autofillActive := true,
    autofillRemaining := if s.vdp.autofillRemaining = 0 then 1 else s.vdp.autofillRemaining } }

/-- Words presented by the host, in its turn. -/
def State.present (s : State) (ops : List OpWord) : State := setPend { s.giveToken .h with ops := ops } .h []

/-- The agent whose operation this is. -/
def Operation.agent : Operation → Agent
  | .host => .h
  | .normalStep c => c.agent
  | .audioStep => .a
  | .dreqStep => .a

/-- The state made one in which this operation is in progress; for `DREQ_STEP` a transfer is active. -/
def State.enter (s : State) (op : Operation) : State :=
  let s1 := setPend (s.giveToken op.agent) op.agent []
  let s2 := if op = .dreqStep then s1.withTransfer else s1
  { s2 with inside := some op }

/-- The host's port: the state in which the very next step runs the operation whose bits are `w`. The block does not
fetch: a schedulable internal step is selected by the token, the existence of its agent and its queue of partners; an
event or a transaction of the host is the next word the host has presented, in its turn; any other operation is the next
presented word inside an operation that calls it, and a step of DREQ or of autofill is enabled only while that unit is
active (log entries 1, 4, 27). -/
def State.withFetchWord (s : State) (nbits w : Nat) : State :=
  let ops := [BitVec.ofNat 64 (w % 2 ^ nbits)]
  match decodeTableWord nbits w with
  | some .coreStepM => setPend (s.giveToken .m) .m []
  | some .coreStepS => setPend (s.giveToken .s) .s []
  | some .audioStep => setPend (s.giveToken .a) .a []
  | some (.syncResolve t) => setPend (s.giveToken t) t (somePartners t (s.pend.get t))
  | some .dreqStep => { s.withTransfer.enter .audioStep with ops := ops }
  | some .autofillStep => { s.withFill.enter .audioStep with ops := ops }
  | some i =>
    match instrPlace i with
    | .within (op :: _) => { s.enter op with ops := ops }
    | .within [] => s.present ops
    | .anywhere => s.present ops
    | .alone => s.present ops
  | none => s.present ops

end Sys2Proof.Machine
end

