-- ==== Sys2Proof/Safety.lean ====
section
/-! DEFINITION. The terms statements use: when an initiator may issue a transaction, when an agent may step, the
invariants of the block (10_state.md R72, R73; 40_scheduler.md R163), running one operation several times, and which
words the encoding tables allow. -/

namespace Sys2Proof.Machine

/-! ### When an operation may be issued -/

/-- The host's turn: it holds the token and is not synchronising (40_scheduler.md R162). -/
def HostTurn (s : State) : Prop := s.token = .h ∧ s.pend.h = []

/-- A transaction of this initiator may be issued: one of the host only in the host's turn. -/
def MayIssue (i : Initiator) (s : State) : Prop := i = .h → HostTurn s

/-- A core may step: it holds the token, exists and is not synchronising (40_scheduler.md R151). -/
def CoreTurn (c : CoreId) (s : State) : Prop :=
  s.token = c.agent ∧ s.alive c.agent = true ∧ s.pend.get c.agent = []

/-- The audio engine may step (40_scheduler.md R158). -/
def AudioTurn (s : State) : Prop := s.token = .a ∧ s.aliveA = true ∧ s.pend.a = []

/-- The `CORE_STEP` of a core. -/
def coreStepOf : CoreId → Instr
  | .m => .coreStepM
  | .s => .coreStepS

/-! ### What a statement says of a next state -/

/-- The scheduler, the thresholds and deficits of the cores, the latched display registers, the audio output and the
host's side are the same in both states. -/
structure SameScheduler (s t : State) : Prop where
  token : t.token = s.token
  clk : t.clk = s.clk
  pend : t.pend = s.pend
  alive : ∀ x, t.alive x = s.alive x
  minSh2 : ∀ c, (t.cores.get c).minCyclesBetweenSh2Syncs = (s.cores.get c).minCyclesBetweenSh2Syncs
  minM68k : ∀ c, (t.cores.get c).minCyclesBetweenM68kSyncs = (s.cores.get c).minCyclesBetweenM68kSyncs
  sh2 : ∀ c, (t.cores.get c).cyclesUntilSh2Sync = (s.cores.get c).cyclesUntilSh2Sync
  m68k : ∀ c, (t.cores.get c).cyclesUntilM68kSync = (s.cores.get c).cyclesUntilM68kSync
  latch : t.vdp.latch = s.vdp.latch
  audioOut : t.audioOut = s.audioOut
  powerOns : t.powerOns = s.powerOns
  ops : t.ops = s.ops
  pixels : t.pixels = s.pixels
  inside : t.inside = s.inside

/-- Word `w` of memory `m` was written with the lanes `l` of `d`, and no other byte of memory differs
(41_bus.md R197). -/
def WordStored (s t : State) (m : MemId) (w : Nat) (l : Lanes) (d : Word) : Prop :=
  readByte t (m.loc (2 * w)) = (if l.u then hiByte d else readByte s (m.loc (2 * w))) ∧
  readByte t (m.loc (2 * w + 1)) = (if l.l then loByte d else readByte s (m.loc (2 * w + 1))) ∧
  ∀ x, x ≠ m.loc (2 * w) → x ≠ m.loc (2 * w + 1) → readByte t x = readByte s x

/-- A write transaction that stored a word of memory and did nothing else: it returned 0 and this wait. -/
def StoredOnly (s t : State) (m : MemId) (w : Nat) (l : Lanes) (d : Word) (wait : Nat) : Prop :=
  t = { s with mem := t.mem, result := .bus 0 wait } ∧ WordStored s t m w l d

/-- `t` is `u` after core `c` has consumed `n` cycles and compared its deficits with its thresholds
(40_scheduler.md R155, R156). -/
def Accounts (c : CoreId) (n : Nat) (u t : State) : Prop :=
  let k := u.cores.get c
  let sh2 := min (k.cyclesUntilSh2Sync.toNat + n) 0xFFFFFFFF
  let m68k := min (k.cyclesUntilM68kSync.toNat + n) 0xFFFFFFFF
  t = { u with
    clk := u.clk.set c.agent (u.clk.get c.agent + BitVec.ofNat 64 n)
    cores := u.cores.set c { k with
      cyclesUntilSh2Sync :=
        if k.minCyclesBetweenSh2Syncs.toNat ≤ sh2 then 0 else BitVec.ofNat 32 sh2
      cyclesUntilM68kSync :=
        if k.minCyclesBetweenM68kSyncs.toNat ≤ m68k then 0 else BitVec.ofNat 32 m68k }
    pend := u.pend.set c.agent
      ((if k.minCyclesBetweenSh2Syncs.toNat ≤ sh2 then [c.other.agent, .a] else []) ++
        (if k.minCyclesBetweenM68kSyncs.toNat ≤ m68k then [.h] else []))
    result := .none }

/-- The map gives this address to the external space (20_memory.md R84, R85). -/
abbrev ExternalAt (i : Initiator) (a : Long) : Prop :=
  (a.toNat < 0x4000 ∧ (i = .h ∨ i = .dreq)) ∨ (0x4400 ≤ a.toNat ∧ a.toNat < 0x40000) ∨ 0xA0000 ≤ a.toNat

/-- A transaction of `i` at `a` is contended (20_memory.md R96). -/
abbrev ContendedAt (i : Initiator) (a : Long) (s : State) : Prop :=
  (0x40000 ≤ a.toNat ∧ a.toNat < 0x60000 ∧ i ≠ .dreq ∧
    (s.vdp.autofillActive = true ∨ (s.dreq.active = true ∧ s.dreq.vram = true))) ∨
  (0x4200 ≤ a.toNat ∧ a.toNat < 0x4400 ∧ s.vdp.vblank = false ∧
    (s.vdp.latch.mode = .packed ∨ s.vdp.latch.mode = .rle)) ∨
  (0x60000 ≤ a.toNat ∧ a.toNat < 0xA0000 ∧ i = .h ∧ s.dreq.active = true ∧ s.dreq.vram = false)

/-- PALETTE, VRAM or SDRAM (20_memory.md R87). -/
def PlainMemoryAt (a : Long) : Prop :=
  (0x4200 ≤ a.toNat ∧ a.toNat < 0x4400) ∨ (0x40000 ≤ a.toNat ∧ a.toNat < 0xA0000)

/-- The generic read on these lanes (30_encoding.md R126). -/
def readOn (l : Lanes) (i : Initiator) (a : Long) : Instr := genericInstr i .read l a 0

/-- The generic write on these lanes (30_encoding.md R126). -/
def writeOn (l : Lanes) (i : Initiator) (a : Long) (d : Word) : Instr := genericInstr i .write l a d

/-! ### The audio pipeline, as 44_pwm.md words it -/

/-- The raw sample of a channel in mode `m`: the oldest entry (1), the newest (2), the last emitted where there is none,
0 in the other modes (44_pwm.md R296, R297, R302). -/
def rawSample (f : List (BitVec 12)) (last : BitVec 12) (m : BitVec 2) : BitVec 12 :=
  if m = 1 then f.head?.getD last else if m = 2 then f.getLast?.getD last else 0

/-- The FIFO of a channel after a sample in mode `m`. -/
def fifoAfter (f : List (BitVec 12)) (m : BitVec 2) : List (BitVec 12) :=
  if m = 1 then f.tail else if m = 2 then [] else f

/-- The last emitted value of a channel after a sample in mode `m`. -/
def lastAfter (f : List (BitVec 12)) (last : BitVec 12) (m : BitVec 2) : BitVec 12 :=
  if m = 1 ∨ m = 2 then rawSample f last m else last

/-- The sample of this tick emptied the channel's FIFO. -/
def emptiedBy (f : List (BitVec 12)) (m : BitVec 2) : Bool :=
  (m == 1 && f.length == 1) || (m == 2 && f.length != 0)

/-- `IRQ_RAISE` of `pwm` on a core that keeps everything else. -/
def withPwmActive (k : CoreState) : CoreState :=
  { k with irq := { k.irq with active := { k.irq.active with pwm := true } } }

/-- This tick empties a FIFO, by the routing modes (44_pwm.md R301, R302; `mono` leaves the right channel alone). -/
def tickEmpties (p : Pwm) : Bool := emptiedBy p.fifo.l p.lmode || (!p.mono && emptiedBy p.fifo.r p.rmode)

/-! ### The writes inside an operation -/

/-- The write transactions of one `MemWrite`: lanes, address, data (41_bus.md R196). -/
def writesOf (a : Long) (n : Size) (v : Long) : List (Lanes × Long × Word) :=
  match n with
  | .byte => [(if a.getLsbD 0 then .lower else .upper, a, joinBytes (loByte (loWord v)) (loByte (loWord v)))]
  | .word => [(.word, a, loWord v)]
  | .long => [(.word, evenAddr a, hiWord v), (.word, evenAddr a + 2, loWord v)]

/-- A program of calls, run from a state, makes a write transaction of this kind. -/
def MakesWrite (c : CoreId) (kind : Lanes → Long → Word → Prop) : CoreProgram → State → Prop
  | .done _ _, _ => False
  | .read a n k, s =>
    let (v, w, s1) := memRead c.init a n s
    MakesWrite c kind (k v w) s1
  | .write a n v k, s =>
    (∃ p ∈ writesOf a n v, kind p.1 p.2.1 p.2.2) ∨
      let (w, s1) := memWrite c.init a n v s
      MakesWrite c kind (k w) s1

/-- The step of core `c` is a normal one whose instruction makes a write transaction of this kind (40_scheduler.md
R152). -/
def NormalStepWrites (c : CoreId) (kind : Lanes → Long → Word → Prop) (s : State) : Prop :=
  let s1 := (takeInterrupt c s).2
  s.io.adapterReset = false ∧ s.dreq.active = false ∧
    MakesWrite c kind (Config.engineExec (s1.cores.get c).regs) s1

/-- A write transaction that carries a 1 through the lower lane to bit `b` of register `r` (41_bus.md R202). -/
def SetsBit (i : Initiator) (r : Reg) (b : Nat) (l : Lanes) (a : Long) (d : Word) : Prop :=
  targetOf i a = .reg r ∧ l ≠ .upper ∧ d.getLsbD b = true

/-- The bit of a core in `CMDREQ` (10_state.md R56, 42_interrupt.md R229). -/
def cmdBit : CoreId → Nat
  | .m => 0
  | .s => 1

/-- The transfer step writes this word (45_dreq.md R323). -/
def dreqWord (s : State) : Word := (dreqThrough (busRead .dreq .word (dreqAddr s.dreq.source) s).1 s).1

/-- The transfer step from `s` writes a 1 to the core's bit of `CMDREQ`. -/
def DreqCommands (c : CoreId) (s : State) : Prop :=
  s.dreq.active = true ∧ s.dreq.vram = false ∧
    SetsBit .dreq .cmdreq (cmdBit c) .word (dreqAddr s.dreq.target) (dreqWord s)

/-! ### The scanline renderer, as 43_vdp.md words it -/

/-- The word at `w` of the display-side bank, the index taken modulo the bank (43_vdp.md R258 to R260). -/
def shownWord (s : State) (w : Nat) : Word := readWord s (if s.fbSel then .vram1 else .vram0) (w % 65536)

/-- The buffer entry of a colour (43_vdp.md R261). -/
def shownEntry (priority : Bool) (c : Word) : BitVec 32 :=
  0x10000 ||| (if c.getLsbD 15 != priority then 0x8000 else 0) ||| (c &&& 0x7FFF).setWidth 32

/-- The pixels the first `n` spans from `base` make (43_vdp.md R260). -/
def spanStart (s : State) (base n : Nat) : Nat :=
  ((List.range n).map (fun k => (hiByte (shownWord s (base + k))).toNat + 1)).sum

/-! ### Running -/

/-- One operation performed `n` times, stopping at the first fault or refusal. -/
def execTimes (i : Instr) : Nat → State → Host.Outcome State Fault Refusal
  | 0, s => .next s
  | n + 1, s =>
    match exec i s with
    | .next t => execTimes i n t
    | .fault f => .fault f
    | .refused r => .refused r

/-- The operations of a list performed in order, stopping at the first fault or refusal. -/
def execAll : List Instr → State → Host.Outcome State Fault Refusal
  | [], s => .next s
  | i :: rest, s =>
    match exec i s with
    | .next t => execAll rest t
    | .fault f => .fault f
    | .refused r => .refused r

/-! ### Invariants -/

/-- The locations of the palette, the two banks and SDRAM: every byte of the block that can be written
(10_state.md R33 to R35). -/
def Writable (a : Nat) : Prop :=
  (0x8000 ≤ a ∧ a < 0x8200) ∨ (0x100000 ≤ a ∧ a < 0x120000) ∨ (0x200000 ≤ a ∧ a < 0x220000) ∨
    (0x300000 ≤ a ∧ a < 0x340000)

/-- The memory is in canonical form and lists writable locations only: the boot ROMs hold the boot images
(10_state.md R32). -/
structure MemInv (s : State) : Prop where
  form : Memory.wf (unlisted s.powerOns) s.mem
  writable : ∀ e ∈ s.mem, Writable e.1

/-- The DREQ invariants: 10_state.md R72 (d), R73 (e), (f), (g). -/
structure DreqInv (d : Dreq) : Prop where
  dma : d.dma = d.active
  words : d.active = true → d.length ≠ 0
  fifo : d.fifo = []

/-- The audio invariants: 10_state.md R73 (i); 44_pwm.md R291, R300. -/
structure PwmInv (p : Pwm) : Prop where
  fifoL : p.fifo.l.length ≤ 3
  fifoR : p.fifo.r.length ≤ 3
  periods : p.periods = periodsOf p.timer
  counter : p.counter < p.periods

/-- A core's counters: the thresholds are the configured ones (10_state.md R23) and each deficit is 0 or below its
threshold (40_scheduler.md R156). -/
structure DeficitInv (c : CoreId) (k : CoreState) : Prop where
  minSh2 : k.minCyclesBetweenSh2Syncs = Config.cfgMinSh2 c
  minM68k : k.minCyclesBetweenM68kSyncs = Config.cfgMinM68k c
  sh2 : k.cyclesUntilSh2Sync = 0 ∨ k.cyclesUntilSh2Sync < k.minCyclesBetweenSh2Syncs
  m68k : k.cyclesUntilM68kSync = 0 ∨ k.cyclesUntilM68kSync < k.minCyclesBetweenM68kSyncs

/-- The invariant of the block. -/
structure Inv (s : State) : Prop where
  mem : MemInv s
  dreq : DreqInv s.dreq
  /-- 10_state.md R73 (h). -/
  autofill : s.vdp.autofillActive = true ↔ s.vdp.autofillRemaining ≠ 0
  pwm : PwmInv s.pwm
  coreM : DeficitInv .m s.cores.m
  coreS : DeficitInv .s s.cores.s
  /-- The holder of the token exists (40_scheduler.md R157, R166). -/
  holder : s.alive s.token = true
  /-- No agent waits for itself, nor for more than three partners (10_state.md R25, 40_scheduler.md R157). -/
  queues : ∀ t, t ∉ s.pend.get t ∧ (s.pend.get t).length ≤ 3
  /-- The caller's buffer keeps its 1280 entries (43_vdp.md R256, R261). -/
  pixels : s.pixels.length = Config.pixbufLen
  /-- At every boundary between two steps, while `adapterReset` is 1, each core is at its reset vector: it holds the
  registers loaded from its boot image (40_scheduler.md R154, 46_io_mailbox.md R341). -/
  held : s.inside = none → s.io.adapterReset = true →
    ∀ c, (s.cores.get c).regs = engineResetRegs (bootLong c (Config.entryOffset c).toNat)

/-- Agent `t` has not yet checked partner `p`, or is ahead of it by no more than `bound` (40_scheduler.md R163). -/
def Within (s : State) (t p : Agent) (bound : Nat) : Prop :=
  s.alive t = true → s.alive p = true →
    p ∈ s.pend.get t ∨ (s.clk.get t).toNat ≤ (s.clk.get p).toNat + bound

/-- The skew bound of 40_scheduler.md R163: a core is ahead of a partner it need not check by no more than the deficit
of that tier; the audio engine is not ahead of such a partner at all. -/
structure SkewInv (s : State) : Prop where
  core : ∀ c, Within s c.agent c.other.agent (s.cores.get c).cyclesUntilSh2Sync.toNat
  audio : ∀ c, Within s c.agent .a (s.cores.get c).cyclesUntilSh2Sync.toNat
  host : ∀ c, Within s c.agent .h (s.cores.get c).cyclesUntilM68kSync.toNat
  engine : ∀ p, p ≠ .a → Within s .a p 0

/-- No clock went back from `s` to `t`: none has wrapped and there was no `POWER` (10_state.md R22). -/
def ClocksRise (s t : State) : Prop := ∀ k, (s.clk.get k).toNat ≤ (t.clk.get k).toNat

/-! ### The encoding tables -/

/-- Opcode of an event and the bits of its argument that it uses (30_encoding.md R124). -/
def eventTable : List (BitVec 8 × BitVec 32) :=
  [(0x01, 1), (0x02, 0), (0x03, 0), (0x10, 1), (0x11, 1), (0x12, 0x1FF), (0x20, 0xFFFFFFFF), (0x21, 0)]

/-- Opcode of an internal step, the performers the table allows, and the bits of the argument that it uses
(30_encoding.md R125). -/
def internalTable : List (BitVec 8 × List (BitVec 2) × BitVec 32) :=
  [(0x01, [1, 2], 0), (0x02, [0, 1, 2, 3], 0), (0x03, [3], 0), (0x10, [3], 0), (0x11, [3], 0),
   (0x12, [0, 1, 2, 3], 0x1FFF), (0x13, [3], 0x1000), (0x14, [3], 0x1000), (0x20, [3], 0), (0x28, [3], 0),
   (0x30, [0, 1, 2, 3], 0xF), (0x31, [1, 2], 0), (0x32, [1, 2], 7), (0x40, [0], 0), (0x41, [0, 1, 2, 3], 0),
   (0x42, [0, 1, 2, 3], 1)]

/-- The opcodes of internal steps whose argument names a source in bits 2:0 (30_encoding.md R125). -/
def namesSource (op : BitVec 8) : Prop := op = 0x30 ∨ op = 0x32

/-- A format B word whose must-be-0 fields are 0 (30_encoding.md R121). -/
def ValidBus (w : OpWord) : Prop :=
  w.extractLsb' 60 4 = 1 ∧ w.extractLsb' 48 7 = 0 ∧ (w.extractLsb' 57 1 = 0 → w.extractLsb' 0 16 = 0)

/-- A format E word of the event table (30_encoding.md R122, R124). -/
def ValidEvent (w : OpWord) : Prop :=
  w.extractLsb' 60 4 = 2 ∧ w.extractLsb' 32 20 = 0 ∧
    ∃ e ∈ eventTable, w.extractLsb' 52 8 = e.1 ∧ w.extractLsb' 0 32 &&& ~~~e.2 = 0

/-- A format I word of the table of internal steps (30_encoding.md R123, R125). -/
def ValidInternal (w : OpWord) : Prop :=
  w.extractLsb' 60 4 = 3 ∧ w.extractLsb' 32 18 = 0 ∧
    (∃ e ∈ internalTable, w.extractLsb' 52 8 = e.1 ∧ w.extractLsb' 50 2 ∈ e.2.1 ∧
      w.extractLsb' 0 32 &&& ~~~e.2.2 = 0) ∧
    (namesSource (w.extractLsb' 52 8) → (w.extractLsb' 0 3).toNat ≤ 4)

end Sys2Proof.Machine
end

