-- ==== Sys2Proof/Certificates/Slice0/Obligations.lean ====
section
/-! DEFINITION. The statements about the block, in the order of OBLIGATIONS.json. A statement of basis 'derived' rests on
rules that carry the spec's own marks (decisions of 92_eei_decisions.md, derivations) or on a choice of the model, which
its docstring names. -/

section
open Sys2Proof Sys2Proof.Machine

/-- O1. Decode and encode agree for every well-formed operation. For every well-formed operation of every row, with
every operand value, the decoder reads the operation back from the word the encoder writes, at the row's level. The
encoding is the spec's own serialisation (decision D22). (Rests on R121, R122, R123, R124, R125, R126.) -/
def Obligations.EncodedOperationDecodesBack : Prop :=
  ∀ i : Instr, i.wellFormed = true → decodeAt i.level (encode i) = some i

/-- O2. A decoded word is the word the encoder writes, up to the ignored address bit of a register row. Whatever a word
decodes to is well formed, and encoding it gives the word back; only in a row of level target that names a register
is bit 0 of the address (bit 16 of the word) written 0, since R126 ignores it (log entry 3). (Rests on R121, R122,
R123, R126, R133.) -/
def Obligations.DecodedOperationEncodesBack : Prop :=
  ∀ (lvl : Level) (w : OpWord) (i : Instr), decodeAt lvl w = some i →
    i.wellFormed = true ∧
      (encode i = w ∨
        (lvl = .target ∧ w.extractLsb' 60 4 = 1 ∧
          (∃ r, targetOf (initOf (w.extractLsb' 58 2)) (w.extractLsb' 16 32) = .reg r) ∧
          encode i = w &&& 0xFFFFFFFFFFFEFFFF))

/-- O3. The decoder accepts the words of the encoding tables and no other. A word decodes at level generic exactly when
it is a format B, E or I word of the tables with its must-be-0 fields 0, an allowed performer and a source number of
at most 4; at level target exactly when, beside that, a format B word selects a lane; and the preferred decoder
refuses exactly the words of level generic refuses. (Rests on R120, R121, R122, R123, R124, R125, R128, R129.) -/
def Obligations.DecoderAcceptsExactlyTheTables : Prop :=
  ∀ w : OpWord,
    ((decodeAt .generic w).isSome = true ↔ ValidBus w ∨ ValidEvent w ∨ ValidInternal w) ∧
    ((decodeAt .target w).isSome = true ↔
      (ValidBus w ∧ w.extractLsb' 55 2 ≠ 0) ∨ ValidEvent w ∨ ValidInternal w) ∧
    (decode w = none ↔ decodeAt .generic w = none)

/-- O4. Words written out from the encoding tables decode to their operations. Some operation words of the three
formats, written bit by bit from the tables, decode to the operations they stand for, and some that spell no
operation are refused. A bus word matches a generic and a target row (R133); that the decoder answers mbox0Rd,
irqenWr, mbox0Wr and sdramLoWr for the words of those rows, and not their generic transactions, is the model's
choice (log entry 2). (Rests on R121, R122, R123, R124, R125, R126, R129, R133.) -/
def Obligations.KnownWordsDecode : Prop :=
  decode 0x1180000040200000 = some (.mbox0Rd .h .word) ∧
    decodeAt .generic 0x1180000040200000 = some (.rd16 .h 0x4020) ∧
    decode 0x178000004000000C = some (.irqenWr .m .word 0x000C) ∧
    decode 0x1A80000040200011 = some (.mbox0Wr .s .lower 0x0011) ∧
    decode 0x1F00000600021200 = some (.sdramLoWr .dreq .upper 2 0x1200) ∧
    decode 0x1000000000000000 = some (.busNoLane .h .read 0 0) ∧
    decode 0x2010000000000001 = some (.power true) ∧
    decode 0x212000000000012C = some (.scanline 300) ∧
    decode 0x2200000000000064 = some (.hostAdvance 100) ∧
    decode 0x3014000000000000 = some .coreStepM ∧
    decode 0x303C000000000000 = some .audioStep ∧
    decode 0x3120000000001FFF = some (.fifoWrite .h .r 0xFFF) ∧
    decode 0x330C00000000000B = some (.irqRaise .a .s .vint) ∧
    decode 0x3328000000000004 = some (.irqDispatchS .vres) ∧
    decode 0x3428000000000001 = some (.selectFb .s true) ∧
    decode 0x4000000000000000 = none ∧ decode 0x2010000000000002 = none ∧
    decode 0x3010000000000000 = none ∧ decode 0x3300000000000005 = none

/-- O5. The two rows a bus word matches have the same effect. A word that decodes to one operation at level generic and
to one at level target has the same outcome as either, in every state (log entry 2). (Rests on R126, R133.) -/
def Obligations.GenericAndTargetRowsAgree : Prop :=
  ∀ (w : OpWord) (g t : Instr) (s : State),
    decodeAt .generic w = some g → decodeAt .target w = some t → exec g s = exec t s

/-- O6. A step runs the enabled internal step, or else the operation the presented word decodes to, where it may be
performed. In the host's turn, inside an operation, and while the token holder does not exist, when the next
presented word decodes, at either level, to an operation, a step is exec of that operation in the state with the
word taken off the list, provided the operation may be performed there, and is refused otherwise; a word that
decodes to nothing is refused as invalid, and with no word presented the run is over. How words are presented, and
the field that says inside which operation, are the model's (log entries 1, 2, 4, 20). Outside every operation and
with a token holder that exists: with a partner queued for the token holder the step is SYNC_RESOLVE of the holder;
with none it is CORE_STEP of M or S or AUDIO_STEP, by the holder. Nothing else happens in that step: the presented
words stay. (Rests on R162, R129, R159, R204, R28, R151, R157, R158.) -/
def Obligations.StepRunsTheDecodedOperation : Prop :=
  (∀ (s : State), HostTurn s ∨ s.inside ≠ none ∨ s.alive s.token = false →
    (∀ (w : OpWord) (rest : List OpWord), s.ops = w :: rest →
      (∀ (lvl : Level) (i : Instr), decodeAt lvl w = some i →
        (mayPerform (instrPlace i) s = true → step s = exec i { s with ops := rest }) ∧
        (mayPerform (instrPlace i) s = false → step s = .refused .notEnabled)) ∧
      (decode w = none → step s = .refused .invalidWord)) ∧
    (s.ops = [] → step s = .refused .noOperation)) ∧
    (∀ (s : State), s.inside = none → s.alive s.token = true →
    (∀ p rest, s.pend.get s.token = p :: rest → step s = exec (.syncResolve s.token) s) ∧
    (s.pend.get s.token = [] → s.token = .m → step s = exec .coreStepM s) ∧
    (s.pend.get s.token = [] → s.token = .s → step s = exec .coreStepS s) ∧
    (s.pend.get s.token = [] → s.token = .a → step s = exec .audioStep s))

/-- O7. Every address reaches the region, register or reserved word the map gives it. The map of R84 (decision D1) at
every address and for every initiator: boot ROM of the accessing core with mirroring, the 31 registers at their
addresses, the reserved gaps, palette, VRAM, SDRAM, and everything else external with bit 0 cleared. Bit 0 of an
address is ignored. (Rests on R84, R85, R57, R61, R62, R92.) -/
def Obligations.AddressMapFollowsTheTable : Prop :=
  ∀ (i : Initiator) (a : Long),
    (a.toNat < 0x4000 → ∀ c, i.core? = some c → targetOf i a = .bootrom c (a.toNat / 2 % Config.bootromWords c)) ∧
    (∀ p ∈ [(0x4000, Reg.irqen), (0x4002, .irqstat), (0x4004, .irqack), (0x4006, .adapter), (0x4008, .hperiod),
        (0x400A, .hcounter), (0x400C, .cmdreq), (0x4020, .mbox 0), (0x4022, .mbox 1), (0x4024, .mbox 2),
        (0x4026, .mbox 3), (0x4028, .mbox 4), (0x402A, .mbox 5), (0x402C, .mbox 6), (0x402E, .mbox 7),
        (0x4030, .pwmctl), (0x4032, .pwmcyc), (0x4034, .pwml), (0x4036, .pwmr), (0x4040, .dreqctl),
        (0x4042, .dreqsrch), (0x4044, .dreqsrcl), (0x4046, .dreqdsth), (0x4048, .dreqdstl), (0x404A, .dreqlen),
        (0x4100, .vdpmode), (0x4102, .vdpshift), (0x4104, .aflen), (0x4106, .afaddr), (0x4108, .afdata),
        (0x410A, .fbctl)],
      a.toNat = p.1 ∨ a.toNat = p.1 + 1 → targetOf i a = .reg p.2) ∧
    ((0x400E ≤ a.toNat ∧ a.toNat ≤ 0x401F) ∨ (0x4038 ≤ a.toNat ∧ a.toNat ≤ 0x403F) ∨
        (0x404C ≤ a.toNat ∧ a.toNat ≤ 0x40FF) ∨ (0x410C ≤ a.toNat ∧ a.toNat ≤ 0x41FF) →
      targetOf i a = .reserved) ∧
    (0x4200 ≤ a.toNat → a.toNat ≤ 0x43FF → targetOf i a = .palette ((a.toNat - 0x4200) / 2)) ∧
    (0x40000 ≤ a.toNat → a.toNat ≤ 0x5FFFF → targetOf i a = .vram ((a.toNat - 0x40000) / 2)) ∧
    (0x60000 ≤ a.toNat → a.toNat ≤ 0x9FFFF → targetOf i a = .sdram ((a.toNat - 0x60000) / 2)) ∧
    (ExternalAt i a → targetOf i a = .external (a &&& 0xFFFFFFFE))

/-- O8. A bus word with no lane selected raises BusContractViolation, and nothing else faults. A format B word with u =
l = 0 decodes to the operation that ends, in every state, in the fault BusContractViolation with its initiator,
direction and address; a step that meets it where no internal step is enabled is that fault, so no state follows and
none changes; no other operation ends in a fault. A word whose must-be-0 fields are not 0 is no format B word (R121,
R129). That the row faults whoever the initiator is and whoever holds the token is the model's reading of R360,
which tests the lanes before decoding (log entry 24). (Rests on R128, R190, R360.) -/
def Obligations.NoLaneTransactionFaults : Prop :=
  (∀ (w : OpWord), ValidBus w → w.extractLsb' 55 2 = 0 →
      decode w = some (.busNoLane (initOf (w.extractLsb' 58 2)) (dirOf (w.extractLsb' 57 1)) (w.extractLsb' 16 32)
        (w.extractLsb' 0 16)) ∧
      ∀ (s : State) (rest : List OpWord), HostTurn s ∨ s.inside ≠ none ∨ s.alive s.token = false →
        s.ops = w :: rest → step s = .fault (.busContractViolation (initOf (w.extractLsb' 58 2)) (dirOf (w.extractLsb' 57 1))
          (w.extractLsb' 16 32))) ∧
    (∀ (i : Initiator) (rw : Dir) (a : Long) (d : Word) (s : State),
      exec (.busNoLane i rw a d) s = .fault (.busContractViolation i rw a)) ∧
    (∀ (j : Instr) (s : State) (f : Fault), exec j s = .fault f →
      ∃ i rw a d, j = .busNoLane i rw a d ∧ f = .busContractViolation i rw a)

/-- O9. A lane that is not selected reads 0 and keeps the stored byte. The value a read returns on each lane selection,
and what a write with each lane selection leaves of the stored value (decision D3). (Rests on R190, R191, R192,
R197.) -/
def Obligations.LanesSelectTheirBytes : Prop :=
  ∀ (v old d : Word),
    Lanes.word.mask v = v ∧ Lanes.upper.mask v = v &&& 0xFF00 ∧ Lanes.lower.mask v = v &&& 0x00FF ∧
    Lanes.word.merge old d = d ∧
    Lanes.upper.merge old d = (d &&& 0xFF00) ||| (old &&& 0x00FF) ∧
    Lanes.lower.merge old d = (old &&& 0xFF00) ||| (d &&& 0x00FF)

/-- O10. RD16, RD8U and RD8L complete everywhere, change nothing but the external log, and return their lanes and the
wait. At every address outside the external space RD16 completes, returns a word and the wait FB_WAIT exactly when
the access is contended, and changes no state; RD8U returns the upper byte of the same word, RD8L the lower one. At
an external address the read is logged and completes with wait 0. (Rests on R94, R95, R96, R190, R191, R192.) -/
def Obligations.GenericReadsHaveNoSideEffect : Prop :=
  ∀ (i : Initiator) (a : Long) (s : State), MayIssue i s →
    (¬ ExternalAt i a → ∃ v : Word,
      exec (.rd16 i a) s = .next { s with result := .bus v (if ContendedAt i a s then Config.fbWait else 0) } ∧
      exec (.rd8u i a) s =
        .next { s with result := .bus (v &&& 0xFF00) (if ContendedAt i a s then Config.fbWait else 0) } ∧
      exec (.rd8l i a) s =
        .next { s with result := .bus (v &&& 0x00FF) (if ContendedAt i a s then Config.fbWait else 0) }) ∧
    (ExternalAt i a → ∀ l : Lanes, ∃ v : Word, exec (readOn l i a) s =
      .next { s with extLog := s.extLog ++ [⟨.read, l, a &&& 0xFFFFFFFE, 0⟩], result := .bus (l.mask v) 0 })

/-- O11. WR16, WR8U and WR8L complete everywhere with the wait of the access and never touch the scheduler. At every
address, from every initiator that may issue it, a write completes with value 0 and the wait FB_WAIT exactly when
the access is contended; the token, the clocks, the queues, the existence of the threads, the thresholds and
deficits, the latched display registers, the audio output and the host's side stay. (Rests on R95, R96, R193, R194,
R195.) -/
def Obligations.GenericWritesComplete : Prop :=
  ∀ (i : Initiator) (a : Long) (d : Word) (s : State), MayIssue i s →
    ∀ j ∈ [Instr.wr16 i a d, Instr.wr8u i a d, Instr.wr8l i a d], ∃ t, exec j s = .next t ∧
      t.result = .bus 0 (if ContendedAt i a s then Config.fbWait else 0) ∧ SameScheduler s t

/-- O12. A transaction at an external address is passed on with its lanes and address, logged, and never fails. A read
or write at an address of the external space, as the generic row or as the row EXTERNAL, completes: the log gains
one entry with the direction, the lanes, all address bits but bit 0 and the data, the read's value is the oracle's
answer on the lanes, and nothing else changes. R88 carries the spec's own decision D24; what the oracle's answer may
depend on is log entry 9, and the data word as driven in the log is log entry 25. (Rests on R203, R88.) -/
def Obligations.ExternalTransactionsPassThrough : Prop :=
  ∀ (i : Initiator) (l : Lanes) (a : Long) (d : Word) (s : State), MayIssue i s → ExternalAt i a →
    (∀ j ∈ [readOn l i a, Instr.externalRd i l a],
      exec j s = .next { s with
        extLog := s.extLog ++ [⟨.read, l, a &&& 0xFFFFFFFE, 0⟩]
        result := .bus (l.mask (Config.extRead (extView s) (s.extLog ++ [⟨.read, l, a &&& 0xFFFFFFFE, 0⟩]) l
          (a &&& 0xFFFFFFFE))) 0 }) ∧
    (∀ j ∈ [writeOn l i a d, Instr.externalWr i l a d],
      exec j s = .next { s with
        extLog := s.extLog ++ [⟨.write, l, a &&& 0xFFFFFFFE, d⟩]
        result := .bus 0 0 })

/-- O13. SDRAM reads return the word of the address, and writes merge their lanes into that word alone. SDRAM_LO and
SDRAM_HI, read and write, at every offset, and the generic transactions at every address of the region, on every
lane selection and by every initiator: the read returns the two bytes of the word on the lanes, the write stores the
selected bytes, and no other byte of memory and no other state changes. The wait is FB_WAIT for the host while a
generic DREQ transfer is active, which is case (c) of R96, the spec's own decision D23. (Rests on R199, R95, R96.) -/
def Obligations.SdramWindowReadsAndMerges : Prop :=
  ∀ (i : Initiator) (l : Lanes) (off : BitVec 17) (d : Word) (s : State), MayIssue i s →
    let wait := if i = .h ∧ s.dreq.active = true ∧ s.dreq.vram = false then Config.fbWait else 0
    exec (.sdramLoRd i l off) s =
      .next { s with result := .bus (l.mask (readWord s .sdram (off.toNat / 2))) wait } ∧
    exec (.sdramHiRd i l off) s =
      .next { s with result := .bus (l.mask (readWord s .sdram (0x10000 + off.toNat / 2))) wait } ∧
    (∃ t, exec (.sdramLoWr i l off d) s = .next t ∧ StoredOnly s t .sdram (off.toNat / 2) l d wait) ∧
    (∃ t, exec (.sdramHiWr i l off d) s = .next t ∧ StoredOnly s t .sdram (0x10000 + off.toNat / 2) l d wait) ∧
    (∀ a : Long, 0x60000 ≤ a.toNat → a.toNat < 0xA0000 →
      exec (readOn l i a) s =
        .next { s with result := .bus (l.mask (readWord s .sdram ((a.toNat - 0x60000) / 2))) wait } ∧
      ∃ t, exec (writeOn l i a d) s = .next t ∧ StoredOnly s t .sdram ((a.toNat - 0x60000) / 2) l d wait)

/-- O14. Palette reads return the entry of the address, and writes merge their lanes into that entry alone. PALETTE read
and write at every offset, and the generic transactions at every address of the region, on every lane selection; the
wait is FB_WAIT while the palette is engaged by a scan in an indexed mode, which is case (b) of R96 with the
engagement of R40, the spec's own decisions D23 and D11. (Rests on R201, R40, R96.) -/
def Obligations.PaletteWindowReadsAndMerges : Prop :=
  ∀ (i : Initiator) (l : Lanes) (off : BitVec 9) (d : Word) (s : State), MayIssue i s →
    let wait := if s.vdp.vblank = false ∧ (s.vdp.latch.mode = .packed ∨ s.vdp.latch.mode = .rle)
      then Config.fbWait else 0
    exec (.paletteRd i l off) s =
      .next { s with result := .bus (l.mask (readWord s .palette (off.toNat / 2))) wait } ∧
    (∃ t, exec (.paletteWr i l off d) s = .next t ∧ StoredOnly s t .palette (off.toNat / 2) l d wait) ∧
    (∀ a : Long, 0x4200 ≤ a.toNat → a.toNat < 0x4400 →
      exec (readOn l i a) s =
        .next { s with result := .bus (l.mask (readWord s .palette ((a.toNat - 0x4200) / 2))) wait } ∧
      ∃ t, exec (writeOn l i a d) s = .next t ∧ StoredOnly s t .palette ((a.toNat - 0x4200) / 2) l d wait)

/-- O15. VRAM reaches the writable bank alone; boot ROM is core-local, mirrored and read-only; reserved addresses read 0
and ignore writes. VRAM read and write at every offset and lane selection: the bank is vram[1 - fbSel] at that
moment, so no byte of the displayed bank changes; the wait is FB_WAIT while an autofill or a VRAM-fill transfer
paints, but never for DREQ. BOOTROM read by a core returns the word of its own ROM, the index taken modulo the ROM's
size; BOOTROM and RESERVED writes change nothing; RESERVED reads return 0. None of them waits. (Rests on R86, R96,
R200, R85, R198, R130.) -/
def Obligations.VramBootRomAndReservedWindows : Prop :=
  (∀ (i : Initiator) (l : Lanes) (off : BitVec 17) (d : Word) (s : State), MayIssue i s →
    let bank := if s.fbSel then MemId.vram0 else MemId.vram1
    let wait := if i ≠ .dreq ∧ (s.vdp.autofillActive = true ∨ (s.dreq.active = true ∧ s.dreq.vram = true))
      then Config.fbWait else 0
    exec (.vramRd i l off) s = .next { s with result := .bus (l.mask (readWord s bank (off.toNat / 2))) wait } ∧
    (∃ t, exec (.vramWr i l off d) s = .next t ∧ StoredOnly s t bank (off.toNat / 2) l d wait)) ∧
    (∀ (c : CoreId) (i : Initiator) (l : Lanes) (off : BitVec 14) (r : BitVec 10) (d : Word) (s : State),
    exec (.bootromRd c l off) s = .next { s with
      result := .bus (l.mask (readWord s (bootMem c) (off.toNat / 2 % Config.bootromWords c))) 0 } ∧
    exec (.bootromWr c l off d) s = .next { s with result := .bus 0 0 } ∧
    (MayIssue i s → exec (.reservedRd i l r) s = .next { s with result := .bus 0 0 } ∧
      exec (.reservedWr i l r d) s = .next { s with result := .bus 0 0 }))

/-- O16. PALETTE, VRAM and SDRAM return the last value written, lane by lane, and reads change nothing. At every address
of PALETTE, VRAM or SDRAM: after a word write any initiator reads that word back at either byte address of it; a
byte write replaces its byte of the word there was; a write leaves what a read of every other word of these regions
returns; and a read changes no state. (States R87.) -/
def Obligations.PlainMemoryReturnsTheLastWrite : Prop :=
  ∀ (i j : Initiator) (l : Lanes) (a b : Long) (d old : Word) (w : Nat) (s t : State),
    PlainMemoryAt a → PlainMemoryAt b → MayIssue i s → MayIssue j s →
    exec (.rd16 j b) s = .next { s with result := .bus old w } →
    exec (writeOn l i a d) s = .next t →
    exec (.rd16 j b) t = .next { t with
      result := .bus (if a &&& 0xFFFFFFFE = b &&& 0xFFFFFFFE then
        (match l with
          | .word => d
          | .upper => (d &&& 0xFF00) ||| (old &&& 0x00FF)
          | .lower => (old &&& 0xFF00) ||| (d &&& 0x00FF)) else old) w }

/-- O17. A long is two word transactions, at the even address and at that address plus 2, values joined and waits added.
For every initiator that may issue it, every address and every state: MemRead of a long is RD16 at the address with
bit 0 cleared and then RD16 at that address plus 2 in the state the first left, each routed on its own; its value is
the two words joined, the first in the upper half, its wait is the sum of the two waits, and its state is the one
the second left. MemWrite of a long is WR16 of the upper half and then WR16 of the lower half at the same two
addresses, its wait the sum. So registers of a pair, an odd address, an external address and an address at the edge
of a region are covered, with their side effects in address order. In SDRAM a long written is read back whole and
byte by byte, the most significant byte at the lowest address, and no other byte of memory changes (decisions D3,
D4). (Rests on R90, R93, R95, R196.) -/
def Obligations.LongAccessIsTwoWordAccesses : Prop :=
  (∀ (i : Initiator) (a v : Long) (s : State), MayIssue i s →
      (∃ hi w1 s1 lo w2 s2,
        exec (.rd16 i (a &&& 0xFFFFFFFE)) s = .next s1 ∧ s1.result = .bus hi w1 ∧
        exec (.rd16 i ((a &&& 0xFFFFFFFE) + 2)) s1 = .next s2 ∧ s2.result = .bus lo w2 ∧
        memRead i a .long s = (hi ++ lo, w1 + w2, { s2 with result := s.result })) ∧
      (∃ w1 s1 w2 s2,
        exec (.wr16 i (a &&& 0xFFFFFFFE) (v.extractLsb' 16 16)) s = .next s1 ∧ s1.result = .bus 0 w1 ∧
        exec (.wr16 i ((a &&& 0xFFFFFFFE) + 2) (v.extractLsb' 0 16)) s1 = .next s2 ∧ s2.result = .bus 0 w2 ∧
        memWrite i a .long v s = (w1 + w2, { s2 with result := s.result }))) ∧
    (∀ (i : Initiator) (a v : Long) (s : State), 0x60000 ≤ a.toNat → a.toNat < 0x9FFFE → a.getLsbD 0 = false →
      let t := (memWrite i a .long v s).2
      t = { s with mem := t.mem } ∧
      (memRead i a .long t).1 = v ∧
      (memRead i (a + 1) .long t).1 = v ∧
      (memRead i a .byte t).1 = v >>> 24 ∧
      (memRead i (a + 1) .byte t).1 = (v >>> 16) &&& 0xFF ∧
      (memRead i (a + 2) .byte t).1 = (v >>> 8) &&& 0xFF ∧
      (memRead i (a + 3) .byte t).1 = v &&& 0xFF ∧
      (memRead i (a + 2) .word t).1 = v &&& 0xFFFF ∧
      (memRead i a .long t).2.2 = t ∧
      ∀ x, (∀ k < 4, x ≠ MemId.sdram.loc (a.toNat - 0x60000 + k)) → readByte t x = readByte s x)

/-- O18. IRQEN and IRQSTAT read the five bits of the accessing core; IRQACK, the host and DREQ read 0. A core reads its
own five enables in IRQEN and its own five active bits in IRQSTAT, in the order pwm, cmd, hint, vint, vres from bit
0, every other bit 0; IRQACK reads 0; for H and DREQ all three read 0. No read changes anything. (Rests on R50, R51,
R52, R221, R222, R223.) -/
def Obligations.InterruptRegistersReadTheOwnController : Prop :=
  ∀ (l : Lanes) (s : State),
    (∀ c : CoreId,
      (∃ v : Word, exec (.irqenRd c.init l) s = .next { s with result := .bus (l.mask v) 0 } ∧
        (∀ k : Source, v.getLsbD k.code.toNat = (s.cores.get c).irq.enable.get k) ∧ v.extractLsb' 5 11 = 0) ∧
      (∃ v : Word, exec (.irqstatRd c.init l) s = .next { s with result := .bus (l.mask v) 0 } ∧
        (∀ k : Source, v.getLsbD k.code.toNat = (s.cores.get c).irq.active.get k) ∧ v.extractLsb' 5 11 = 0) ∧
      exec (.irqackRd c.init l) s = .next { s with result := .bus 0 0 }) ∧
    (∀ i : Initiator, i = .h ∨ i = .dreq → MayIssue i s →
      ∀ j ∈ [Instr.irqenRd i l, Instr.irqstatRd i l, Instr.irqackRd i l],
        exec j s = .next { s with result := .bus 0 0 })

/-- O19. IRQEN writes set and IRQACK writes clear bits of the accessing core only, through the lower lane; IRQSTAT
ignores writes. With the lower lane the five enables of the writing core become bits 0 to 4 of the data; without it,
and for H and DREQ, nothing changes. The active bits and the other core are not touched. With the lower lane each
source of the writing core whose bit is 1 in the data becomes inactive and the others keep their active bit; without
it, and for H and DREQ, nothing changes. The enables and the other core are not touched. IRQSTAT is read-only.
(Rests on R221, R222, R223, R224.) -/
def Obligations.InterruptRegisterWritesAreBanked : Prop :=
  (∀ (l : Lanes) (d : Word) (s : State),
    (∀ c : CoreId, exec (.irqenWr c.init l d) s = .next { s with
      cores := s.cores.set c { s.cores.get c with irq := { (s.cores.get c).irq with
        enable := if l = .upper then (s.cores.get c).irq.enable
          else ⟨d.getLsbD 0, d.getLsbD 1, d.getLsbD 2, d.getLsbD 3, d.getLsbD 4⟩ } }
      result := .bus 0 0 }) ∧
    (∀ i : Initiator, i = .h ∨ i = .dreq → MayIssue i s →
      exec (.irqenWr i l d) s = .next { s with result := .bus 0 0 })) ∧
    (∀ (l : Lanes) (d : Word) (s : State),
    (∀ c : CoreId, ∃ act : SourceBits,
      exec (.irqackWr c.init l d) s = .next { s with
        cores := s.cores.set c { s.cores.get c with irq := { (s.cores.get c).irq with active := act } }
        result := .bus 0 0 } ∧
      ∀ k : Source, act.get k =
        ((s.cores.get c).irq.active.get k && !(decide (l ≠ .upper) && d.getLsbD k.code.toNat))) ∧
    (∀ i : Initiator, i = .h ∨ i = .dreq → MayIssue i s →
      exec (.irqackWr i l d) s = .next { s with result := .bus 0 0 }) ∧
    (∀ i : Initiator, MayIssue i s → exec (.irqstatWr i l d) s = .next { s with result := .bus 0 0 }))

/-- O20. A write of CMDREQ raises cmd on the cores whose bit is 1; a read shows both cmd bits. By any initiator: with
the lower lane, bit 0 raises cmd on M and bit 1 on S, a 0 does nothing and no write clears; the read returns the two
cmd active bits in bits 0 and 1 and 0 elsewhere. (Rests on R56, R229.) -/
def Obligations.CmdreqRaisesCmdOnTheNamedCores : Prop :=
  ∀ (i : Initiator) (l : Lanes) (d : Word) (s : State), MayIssue i s →
    (∃ v : Word, exec (.cmdreqRd i l) s = .next { s with result := .bus (l.mask v) 0 } ∧
      v.getLsbD 0 = s.cores.m.irq.active.cmd ∧ v.getLsbD 1 = s.cores.s.irq.active.cmd ∧
      v.extractLsb' 2 14 = 0) ∧
    exec (.cmdreqWr i l d) s = .next { s with
      cores :=
        { m := { s.cores.m with irq := { s.cores.m.irq with active := { s.cores.m.irq.active with
            cmd := s.cores.m.irq.active.cmd || (decide (l ≠ .upper) && d.getLsbD 0) } } }
          s := { s.cores.s with irq := { s.cores.s.irq with active := { s.cores.s.irq.active with
            cmd := s.cores.s.irq.active.cmd || (decide (l ≠ .upper) && d.getLsbD 1) } } } }
      result := .bus 0 0 }

/-- O21. IRQ_RAISE sets the source's active bit whatever its enable, and nothing else. Whoever performs it: the active
bit of the named source of the named core becomes 1, every other active bit, every enable and all other state stay;
raising an active source changes nothing. (States R220.) -/
def Obligations.IrqRaiseSetsOneActiveBit : Prop :=
  ∀ (thr : Agent) (c : CoreId) (k : Source) (s : State), ∃ t, exec (.irqRaise thr c k) s = .next t ∧
    t = { s with cores := t.cores, result := .none } ∧
    (∀ c' k', (t.cores.get c').irq.active.get k' =
      (decide (c' = c ∧ k' = k) || (s.cores.get c').irq.active.get k')) ∧
    (∀ c', t.cores.get c' = { s.cores.get c' with irq := { (s.cores.get c').irq with
      active := (t.cores.get c').irq.active } }) ∧
    ((s.cores.get c).irq.active.get k = true → t = { s with result := .none })

/-- O22. IRQ_QUERY returns the pending source of highest level, or none, and writes nothing. For either core the query
completes, changes no state, and returns a source exactly when it is enabled and active and no pending source has a
higher level; it returns none exactly when no source is both enabled and active. The levels are vres 14, vint 12,
hint 10, cmd 8, pwm 6, so no two sources share one. (States R225.) -/
def Obligations.IrqQueryPicksTheHighestPendingSource : Prop :=
  ∀ (s : State),
    (∀ c : CoreId, ∃ q : Option Source,
      exec (match c with | .m => .irqQueryM | .s => .irqQueryS) s = .next { s with result := .query q } ∧
      (∀ k, q = some k ↔
        ((s.cores.get c).irq.enable.get k = true ∧ (s.cores.get c).irq.active.get k = true ∧
          ∀ j, (s.cores.get c).irq.enable.get j = true → (s.cores.get c).irq.active.get j = true →
            Config.irqLevel j ≤ Config.irqLevel k)) ∧
      (q = none ↔ ∀ j, ¬ ((s.cores.get c).irq.enable.get j = true ∧ (s.cores.get c).irq.active.get j = true))) ∧
    Config.irqLevel .vres = 14 ∧ Config.irqLevel .vint = 12 ∧ Config.irqLevel .hint = 10 ∧
    Config.irqLevel .cmd = 8 ∧ Config.irqLevel .pwm = 6

/-- O23. IRQ_DISPATCH sets the core's pc to the vector in its own boot ROM and changes nothing of the block. For either
core and every source: the pc is the long at VEC_BASE + 4 * VEC[s] of the core's own boot ROM, the other registers
are what the engine's Enter gives for the source, its level, its vector number and that value; enable and active
stay, as does everything else. The vector numbers are the spec's defaults (log entry 13). (Rests on R227, R366.) -/
def Obligations.IrqDispatchVectorsThroughTheBootRom : Prop :=
  ∀ (k : Source) (c : CoreId) (s : State),
    let v := joinWords (readWord s (bootMem c) (2 * Config.vec k)) (readWord s (bootMem c) (2 * Config.vec k + 1))
    exec (match c with | .m => .irqDispatchM k | .s => .irqDispatchS k) s = .next { s with
      cores := s.cores.set c { s.cores.get c with
        regs := { pc := v
                  rest := Config.engineEnter (s.cores.get c).regs k (Config.irqLevel k) (Config.vec k) v } }
      result := .none } ∧
    Config.vec .pwm = 67 ∧ Config.vec .cmd = 68 ∧ Config.vec .hint = 69 ∧ Config.vec .vint = 70 ∧
    Config.vec .vres = 71

/-- O24. An active bit is set only by its owning condition and cleared only by its core's acknowledgement or POWER. Over
every operation: an active bit that goes from 0 to 1 does so in IRQ_RAISE of it, or: pwm in a sample tick that
empties a FIFO with dreqIRQ set (for the timer and audio steps, one in which the counter reaches the period); hint
at the rising edge of HBLANK with hcounter at hperiod; vint at the rising edge of VBLANK; vres at RESTART with
resetEnable set; cmd in a write of 1 to the core's bit of CMDREQ through the lower lane, by a transaction, by the
word a transfer step moves, or by the instruction of a core's normal step. One that goes from 1 to 0 does so in such
a write of 1 to its bit of IRQACK by its own core, as a transaction or in the instruction of its own normal step, or
in POWER. (Rests on R72, R196, R220, R224, R226, R229, R230, R250, R251, R301, R323, R395.) -/
def Obligations.InterruptBitsBelongToTheirConditions : Prop :=
  ∀ (j : Instr) (s t : State) (c : CoreId) (k : Source), exec j s = .next t →
    ((s.cores.get c).irq.active.get k = false → (t.cores.get c).irq.active.get k = true →
      (∃ thr, j = .irqRaise thr c k) ∨
      (k = .pwm ∧ s.pwm.dreqIRQ = true ∧ tickEmpties s.pwm = true ∧
        (j = .sampleTick ∨ ((j = .pwmTimerStep ∨ j = .audioStep) ∧ s.pwm.periods ≤ s.pwm.counter + 1))) ∨
      (k = .hint ∧ j = .hblank true ∧ s.vdp.hblank = false ∧ s.io.hperiod ≤ s.io.hcounter) ∨
      (k = .vint ∧ j = .vblank true ∧ s.vdp.vblank = false) ∨
      (k = .vres ∧ j = .restart ∧ s.io.resetEnable = true) ∨
      (k = .cmd ∧
        ((∃ i l d, j = .cmdreqWr i l d ∧ l ≠ .upper ∧ d.getLsbD (cmdBit c) = true) ∨
          (∃ i l a d, j = writeOn l i a d ∧ SetsBit i .cmdreq (cmdBit c) l a d) ∨
          (j = .dreqStep ∧ DreqCommands c s) ∨
          (j = .audioStep ∧ DreqCommands c (pwmTimerStep s)) ∨
          (∃ x : CoreId, j = coreStepOf x ∧ NormalStepWrites x (SetsBit x.init .cmdreq (cmdBit c)) s)))) ∧
    ((s.cores.get c).irq.active.get k = true → (t.cores.get c).irq.active.get k = false →
      (∃ l d, j = .irqackWr c.init l d ∧ l ≠ .upper ∧ d.getLsbD k.code.toNat = true) ∨
      (∃ l a d, j = writeOn l c.init a d ∧ SetsBit c.init .irqack k.code.toNat l a d) ∨
      (∃ r, j = .power r) ∨
      (j = coreStepOf c ∧ NormalStepWrites c (SetsBit c.init .irqack k.code.toNat) s))

/-- O25. ADAPTER, HPERIOD and HCOUNTER read their fields, and writes store them. By any initiator: ADAPTER returns
adapterEnable, adapterReset, resetEnable, cartridgeMode in bits 0 to 3, romBank in bits 5:4 and 0 elsewhere; HPERIOD
and HCOUNTER return their registers. Nothing changes. With the lower lane and no 0-to-1 edge of adapterReset the
five fields take bits 0 to 5 of the data; with the upper lane only nothing changes. HPERIOD merges its lanes;
HCOUNTER ignores writes. (Rests on R53, R54, R55, R340, R342, R343, R344.) -/
def Obligations.IoRegistersReadAndStoreTheirFields : Prop :=
  (∀ (i : Initiator) (l : Lanes) (s : State), MayIssue i s →
    (∃ v : Word, exec (.adapterRd i l) s = .next { s with result := .bus (l.mask v) 0 } ∧
      v.getLsbD 0 = s.io.adapterEnable ∧ v.getLsbD 1 = s.io.adapterReset ∧ v.getLsbD 2 = s.io.resetEnable ∧
      v.getLsbD 3 = s.io.cartridgeMode ∧ v.extractLsb' 4 2 = s.io.romBank ∧ v.extractLsb' 6 10 = 0) ∧
    exec (.hperiodRd i l) s = .next { s with result := .bus (l.mask s.io.hperiod) 0 } ∧
    exec (.hcounterRd i l) s = .next { s with result := .bus (l.mask s.io.hcounter) 0 }) ∧
    (∀ (i : Initiator) (l : Lanes) (d : Word) (s : State), MayIssue i s →
    (l ≠ .upper → (s.io.adapterReset = true ∨ d.getLsbD 1 = false) →
      exec (.adapterWr i l d) s = .next { s with
        io := { s.io with
          adapterEnable := d.getLsbD 0
          adapterReset := d.getLsbD 1
          resetEnable := d.getLsbD 2
          cartridgeMode := d.getLsbD 3
          romBank := d.extractLsb' 4 2 }
        result := .bus 0 0 }) ∧
    (l = .upper → exec (.adapterWr i l d) s = .next { s with result := .bus 0 0 }) ∧
    exec (.hperiodWr i l d) s =
      .next { s with io := { s.io with hperiod := l.merge s.io.hperiod d }, result := .bus 0 0 } ∧
    exec (.hcounterWr i l d) s = .next { s with result := .bus 0 0 })

/-- O26. The 0-to-1 edge of adapterReset reloads both cores from their boot ROMs and touches nothing else. A write of
ADAPTER that raises adapterReset stores the five fields and gives each core the engine's power-on registers with its
pc at the long at byte offset 0 of its own boot ROM; interrupt state, memories, clocks, deficits and queues are
kept. The entry offset 0 is the spec's default (log entry 13). (Rests on R341, R391.) -/
def Obligations.AdapterResetEdgeReloadsBothCores : Prop :=
  ∀ (i : Initiator) (l : Lanes) (d : Word) (s : State), MayIssue i s → l ≠ .upper → s.io.adapterReset = false →
    d.getLsbD 1 = true →
    let entry (c : CoreId) : Long := joinWords (readWord s (bootMem c) 0) (readWord s (bootMem c) 1)
    exec (.adapterWr i l d) s = .next { s with
      io := { s.io with
        adapterEnable := d.getLsbD 0
        adapterReset := true
        resetEnable := d.getLsbD 2
        cartridgeMode := d.getLsbD 3
        romBank := d.extractLsb' 4 2 }
      cores :=
        { m := { s.cores.m with regs := ⟨entry .m, Config.engineReset (entry .m)⟩ }
          s := { s.cores.s with regs := ⟨entry .s, Config.engineReset (entry .s)⟩ } }
      result := .bus 0 0 }

/-- O27. A mailbox slot takes the lanes any initiator writes and gives every reader its current value. For each of the
eight slots and every initiator: a write merges its lanes into that slot and changes nothing else, a read returns
the slot and changes nothing; so a later read by any initiator returns the last value written, and a long written at
slots i and i + 1 puts its upper half in slot i. (States R345.) -/
def Obligations.MailboxIsLastWriterWins : Prop :=
  ∀ (i : Initiator) (l : Lanes) (d : Word) (s : State), MayIssue i s →
    (∀ p ∈ [((0 : Fin 8), Instr.mbox0Rd i l, Instr.mbox0Wr i l d), (1, .mbox1Rd i l, .mbox1Wr i l d),
        (2, .mbox2Rd i l, .mbox2Wr i l d), (3, .mbox3Rd i l, .mbox3Wr i l d), (4, .mbox4Rd i l, .mbox4Wr i l d),
        (5, .mbox5Rd i l, .mbox5Wr i l d), (6, .mbox6Rd i l, .mbox6Wr i l d), (7, .mbox7Rd i l, .mbox7Wr i l d)],
      exec p.2.1 s = .next { s with result := .bus (l.mask s.mailbox[p.1]) 0 } ∧
      exec p.2.2 s = .next { s with
        mailbox := s.mailbox.set p.1 (l.merge s.mailbox[p.1] d), result := .bus 0 0 }) ∧
    (∀ (k : Fin 7) (v : Long) (t : State), t = (memWrite i (0x4020 + 2 * BitVec.ofNat 32 k.val) .long v s).2 →
      t.mailbox[k.castSucc] = hiWord v ∧ t.mailbox[k.succ] = loWord v ∧ t = { s with mailbox := t.mailbox })

/-- O28. PWMCTL, PWMCYC, PWML and PWMR read their fields and status bits, without dequeueing. By any initiator: PWMCTL
returns lmode, rmode, mono, dreqIRQ, timer at their positions and 0 elsewhere; PWMCYC returns the cycle counter;
PWML and PWMR return bit 15 when the channel's FIFO holds 3 entries, bit 14 when it holds none and 0 elsewhere.
Nothing changes. (Rests on R59, R60, R63, R64, R290, R292, R294.) -/
def Obligations.PwmRegistersReadTheirFields : Prop :=
  ∀ (i : Initiator) (l : Lanes) (s : State), MayIssue i s →
    (∃ v : Word, exec (.pwmctlRd i l) s = .next { s with result := .bus (l.mask v) 0 } ∧
      v.extractLsb' 0 2 = s.pwm.lmode ∧ v.extractLsb' 2 2 = s.pwm.rmode ∧ v.getLsbD 4 = s.pwm.mono ∧
      v.extractLsb' 5 2 = 0 ∧ v.getLsbD 7 = s.pwm.dreqIRQ ∧ v.extractLsb' 8 4 = s.pwm.timer ∧
      v.extractLsb' 12 4 = 0) ∧
    (∃ v : Word, exec (.pwmcycRd i l) s = .next { s with result := .bus (l.mask v) 0 } ∧
      v.extractLsb' 0 12 = s.pwm.cycle ∧ v.extractLsb' 12 4 = 0) ∧
    (∃ v : Word, exec (.pwmlRd i l) s = .next { s with result := .bus (l.mask v) 0 } ∧
      v.getLsbD 15 = (s.pwm.fifo.l.length == 3) ∧ v.getLsbD 14 = s.pwm.fifo.l.isEmpty ∧ v.extractLsb' 0 14 = 0) ∧
    (∃ v : Word, exec (.pwmrRd i l) s = .next { s with result := .bus (l.mask v) 0 } ∧
      v.getLsbD 15 = (s.pwm.fifo.r.length == 3) ∧ v.getLsbD 14 = s.pwm.fifo.r.isEmpty ∧ v.extractLsb' 0 14 = 0)

/-- O29. PWMCTL recomputes the period, PWMCYC merges 12 bits, PWML and PWMR enqueue words and ignore bytes. The lower
lane sets lmode, rmode, mono and dreqIRQ; the upper lane sets the timer, makes periods 16 for timer 0 and the timer
otherwise, and clears the counter; the FIFOs, the last values and the filters are not touched. PWMCYC merges its
lanes into the 12-bit cycle counter, bits 15:12 ignored. A word write does to the state what FIFO_WRITE of the low
12 bits of the data does, and returns 0; a write with one lane changes nothing (decision D2). (Rests on R290, R291,
R292, R293.) -/
def Obligations.PwmRegisterWrites : Prop :=
  (∀ (i : Initiator) (l : Lanes) (d : Word) (s : State), MayIssue i s →
    exec (.pwmctlWr i l d) s = .next { s with
      pwm := { s.pwm with
        lmode := if l = .upper then s.pwm.lmode else d.extractLsb' 0 2
        rmode := if l = .upper then s.pwm.rmode else d.extractLsb' 2 2
        mono := if l = .upper then s.pwm.mono else d.getLsbD 4
        dreqIRQ := if l = .upper then s.pwm.dreqIRQ else d.getLsbD 7
        timer := if l = .lower then s.pwm.timer else d.extractLsb' 8 4
        periods := if l = .lower then s.pwm.periods
          else if d.extractLsb' 8 4 = 0 then 16 else (d.extractLsb' 8 4).setWidth 32
        counter := if l = .lower then s.pwm.counter else 0 }
      result := .bus 0 0 } ∧
    exec (.pwmcycWr i l d) s = .next { s with
      pwm := { s.pwm with
        cycle := match l with
          | .word => d.extractLsb' 0 12
          | .upper => d.extractLsb' 8 4 ++ s.pwm.cycle.extractLsb' 0 8
          | .lower => s.pwm.cycle.extractLsb' 8 4 ++ d.extractLsb' 0 8 }
      result := .bus 0 0 }) ∧
    (∀ (i : Initiator) (l : Lanes) (d : Word) (s : State), MayIssue i s →
    (∀ p ∈ [(Channel.l, Instr.pwmlWr i l d), (Channel.r, Instr.pwmrWr i l d)],
      (l ≠ .word → exec p.2 s = .next { s with result := .bus 0 0 }) ∧
      (l = .word → ∃ t, exec (.fifoWrite .h p.1 (d.extractLsb' 0 12)) s = .next t ∧
        exec p.2 s = .next { t with result := .bus 0 0 })))

/-- O30. Writing samples into a PWM FIFO leaves the most recent three in order of arrival. For every channel, every FIFO
of at most three entries and every list of samples written one after another, by whatever agents, each write
completes, the FIFO then holds the last three of what was there followed by what was written, and nothing else
changes. (States R295.) -/
def Obligations.FifoKeepsTheNewestThree : Prop :=
  ∀ (ch : Channel) (vs : List (Agent × BitVec 12)) (s : State), (s.pwm.fifo.get ch).length ≤ 3 →
    ∃ t, execAll (vs.map (fun p => Instr.fifoWrite p.1 ch p.2)) s = .next t ∧
      t.pwm.fifo.get ch = (s.pwm.fifo.get ch ++ vs.map Prod.snd).drop
        ((s.pwm.fifo.get ch ++ vs.map Prod.snd).length - 3) ∧
      t = { s with
        pwm := { s.pwm with fifo := s.pwm.fifo.set ch (t.pwm.fifo.get ch) }
        result := t.result }

/-- O31. FIFO_READ removes and records the oldest entry, and on an empty FIFO repeats the last sample. On a non-empty
FIFO the read returns the oldest entry and whether it emptied the FIFO, removes it and records it as the last value;
on an empty one it returns the last value, reports false and changes nothing, so it returns the same value however
often it is repeated; the last value is 0 at reset. (States R296.) -/
def Obligations.FifoReadHoldsTheLastSample : Prop :=
  ∀ (ch : Channel) (s : State),
    (∀ v rest, s.pwm.fifo.get ch = v :: rest → exec (.fifoRead ch) s = .next { s with
      pwm := { s.pwm with fifo := s.pwm.fifo.set ch rest, last := s.pwm.last.set ch v }
      result := .sample v rest.isEmpty }) ∧
    (s.pwm.fifo.get ch = [] → ∀ n, execTimes (.fifoRead ch) (n + 1) s =
      .next { s with result := .sample (s.pwm.last.get ch) false }) ∧
    State.reset.pwm.last.get ch = 0

/-- O32. FIFO_DRAIN emits the newest entry and empties the FIFO; PWM_TIMER_STEP counts to the period and ticks once. On
a non-empty FIFO the newest entry is returned with true, recorded as the last value, and the queue is emptied; on an
empty one the last value is returned with false and nothing changes (decision D16). Below the period the two
counters advance and nothing else changes; when the counter reaches periods it becomes 0 and the step does what
SAMPLE_TICK does then. (Rests on R297, R300.) -/
def Obligations.DrainAndTimerSteps : Prop :=
  (∀ (ch : Channel) (s : State),
    (∀ older v, s.pwm.fifo.get ch = older ++ [v] → exec (.fifoDrain ch) s = .next { s with
      pwm := { s.pwm with fifo := s.pwm.fifo.set ch [], last := s.pwm.last.set ch v }
      result := .sample v true }) ∧
    (s.pwm.fifo.get ch = [] → exec (.fifoDrain ch) s =
      .next { s with result := .sample (s.pwm.last.get ch) false })) ∧
    (∀ (s : State),
    (s.pwm.counter + 1 < s.pwm.periods → exec .pwmTimerStep s = .next { s with
      pwm := { s.pwm with cycle := s.pwm.cycle + 1, counter := s.pwm.counter + 1 }, result := .none }) ∧
    (s.pwm.periods ≤ s.pwm.counter + 1 → exec .pwmTimerStep s = exec .sampleTick { s with
      pwm := { s.pwm with cycle := s.pwm.cycle + 1, counter := 0 } }))

/-- O33. SAMPLE_TICK emits one filtered stereo pair by the routing modes and raises pwm on both cores when a FIFO
empties. The left raw sample comes from its mode, the right one from its own unless mono repeats the left; each
passes the filter of its channel, which takes a new state, and one pair is appended to the output; the FIFOs and
last values change as the modes say; pwm becomes active on both cores exactly when a FIFO was emptied by this tick
and dreqIRQ is set; nothing else changes. The filter is the configured one, of which nothing is assumed, and where
none is configured the default of R306: from state (x1, y1) on sample x it computes y = x - x1 + ((y1 * 255) >> 8),
rounding down, kept to 32 bits, takes the state (x, y) and gives y clamped to 16 bits, starting from (0, 0)
(decisions D9, D16, D17, D18; the coding of the state and the exact intermediate are log entry 14). (Rests on R301,
R302, R306.) -/
def Obligations.SampleTickEmitsOneFilteredPair : Prop :=
  (∀ (s : State),
      let rawL := rawSample s.pwm.fifo.l s.pwm.last.l s.pwm.lmode
      let rawR := if s.pwm.mono then rawL else rawSample s.pwm.fifo.r s.pwm.last.r s.pwm.rmode
      let outL := dcFilter.apply s.pwm.dc.l rawL
      let outR := dcFilter.apply s.pwm.dc.r rawR
      exec .sampleTick s = .next { s with
        pwm := { s.pwm with
          fifo := ⟨fifoAfter s.pwm.fifo.l s.pwm.lmode,
            if s.pwm.mono then s.pwm.fifo.r else fifoAfter s.pwm.fifo.r s.pwm.rmode⟩
          last := ⟨lastAfter s.pwm.fifo.l s.pwm.last.l s.pwm.lmode,
            if s.pwm.mono then s.pwm.last.r else lastAfter s.pwm.fifo.r s.pwm.last.r s.pwm.rmode⟩
          dc := ⟨outL.1, outR.1⟩ }
        audioOut := s.audioOut ++ [(outL.2, outR.2)]
        cores := if tickEmpties s.pwm && s.pwm.dreqIRQ
          then ⟨withPwmActive s.cores.m, withPwmActive s.cores.s⟩ else s.cores
        result := .none }) ∧
    (∀ f, Config.dcFilterSetting = some f → dcFilter = f) ∧
    (Config.dcFilterSetting = none → dcFilter = defaultDcFilter) ∧
    defaultDcFilter.init = filterState 0 0 ∧
    ∀ (x1 : BitVec 16) (y1 : BitVec 32) (x : BitVec 12),
      let y := BitVec.ofInt 32 (x.toInt - x1.toInt + ((y1.toInt * 255) >>> (8 : Nat)))
      defaultDcFilter.apply (filterState x1 y1) x = (filterState (x.signExtend 16) y,
        if y.toInt < -32768 then 0x8000 else if y.toInt > 32767 then 0x7FFF else y.extractLsb' 0 16)

/-- O34. The six DREQ registers read the mode, the activity and the advancing addresses and length. By any initiator,
without side effect: DREQCTL returns vram, dma, active in bits 0 to 2; the high registers return bits 23:16 of their
address in bits 7:0, the low ones bits 15:0; DREQLEN the length. (Rests on R65, R66, R320, R321.) -/
def Obligations.DreqRegistersReadTheCurrentValues : Prop :=
  ∀ (i : Initiator) (l : Lanes) (s : State), MayIssue i s →
    (∃ v : Word, exec (.dreqctlRd i l) s = .next { s with result := .bus (l.mask v) 0 } ∧
      v.getLsbD 0 = s.dreq.vram ∧ v.getLsbD 1 = s.dreq.dma ∧ v.getLsbD 2 = s.dreq.active ∧
      v.extractLsb' 3 13 = 0) ∧
    (∃ v : Word, exec (.dreqsrchRd i l) s = .next { s with result := .bus (l.mask v) 0 } ∧
      v.extractLsb' 0 8 = s.dreq.source.extractLsb' 16 8 ∧ v.extractLsb' 8 8 = 0) ∧
    (∃ v : Word, exec (.dreqdsthRd i l) s = .next { s with result := .bus (l.mask v) 0 } ∧
      v.extractLsb' 0 8 = s.dreq.target.extractLsb' 16 8 ∧ v.extractLsb' 8 8 = 0) ∧
    exec (.dreqsrclRd i l) s = .next { s with result := .bus (l.mask (s.dreq.source.extractLsb' 0 16)) 0 } ∧
    exec (.dreqdstlRd i l) s = .next { s with result := .bus (l.mask (s.dreq.target.extractLsb' 0 16)) 0 } ∧
    exec (.dreqlenRd i l) s = .next { s with result := .bus (l.mask s.dreq.length) 0 }

/-- O35. While idle DREQCTL starts a transfer of non-zero length and the field registers merge; while active all are
ignored. With the lower lane and no transfer active: vram becomes bit 0, and with bit 1 set and a non-zero length
dma and active become 1. With the upper lane only, or while a transfer is active, nothing changes (decision D20).
The high registers take bits 7:0 of the data into bits 23:16 of their address through the lower lane; the low
registers and DREQLEN merge both lanes; while a transfer is active every one of the five writes changes nothing
(decision D20). (Rests on R320, R321.) -/
def Obligations.DreqWritesTakeEffectWhileIdle : Prop :=
  (∀ (i : Initiator) (l : Lanes) (d : Word) (s : State), MayIssue i s →
    (l = .upper ∨ s.dreq.active = true → exec (.dreqctlWr i l d) s = .next { s with result := .bus 0 0 }) ∧
    (l ≠ .upper → s.dreq.active = false → exec (.dreqctlWr i l d) s = .next { s with
      dreq := { s.dreq with
        vram := d.getLsbD 0
        dma := if d.getLsbD 1 = true ∧ s.dreq.length ≠ 0 then true else s.dreq.dma
        active := decide (d.getLsbD 1 = true ∧ s.dreq.length ≠ 0) }
      result := .bus 0 0 })) ∧
    (∀ (i : Initiator) (l : Lanes) (d : Word) (s : State), MayIssue i s →
    (s.dreq.active = true → ∀ j ∈ [Instr.dreqsrchWr i l d, .dreqsrclWr i l d, .dreqdsthWr i l d, .dreqdstlWr i l d,
      .dreqlenWr i l d], exec j s = .next { s with result := .bus 0 0 }) ∧
    (s.dreq.active = false →
      exec (.dreqsrchWr i l d) s = .next { s with
        dreq := { s.dreq with
          source := (if l = .upper then s.dreq.source.extractLsb' 16 8 else d.extractLsb' 0 8) ++
            s.dreq.source.extractLsb' 0 16 }
        result := .bus 0 0 } ∧
      exec (.dreqsrclWr i l d) s = .next { s with
        dreq := { s.dreq with
          source := s.dreq.source.extractLsb' 16 8 ++
            l.merge (s.dreq.source.extractLsb' 0 16) d }
        result := .bus 0 0 } ∧
      exec (.dreqdsthWr i l d) s = .next { s with
        dreq := { s.dreq with
          target := (if l = .upper then s.dreq.target.extractLsb' 16 8 else d.extractLsb' 0 8) ++
            s.dreq.target.extractLsb' 0 16 }
        result := .bus 0 0 } ∧
      exec (.dreqdstlWr i l d) s = .next { s with
        dreq := { s.dreq with
          target := s.dreq.target.extractLsb' 16 8 ++
            l.merge (s.dreq.target.extractLsb' 0 16) d }
        result := .bus 0 0 } ∧
      exec (.dreqlenWr i l d) s = .next { s with
        dreq := { s.dreq with length := l.merge s.dreq.length d }, result := .bus 0 0 }))

/-- O36. DREQ_STEP moves one word by a DREQ read and a DREQ write or a store into the writable bank, then counts. While
a transfer is active with its FIFO empty: the word read at source << 1 by initiator DREQ goes, in VRAM-fill mode, to
word target mod 65536 of the writable bank and otherwise through a DREQ write at target << 1; then both addresses
count up and the length down; with no word left the transfer becomes inactive and FB_COMMIT is made. When no
transfer is active the step is refused (U13; log entry 5). (Rests on R322, R323.) -/
def Obligations.DreqStepIsAReadAndAWrite : Prop :=
  ∀ (s : State),
    (s.dreq.active = false → exec .dreqStep s = .refused .notEnabled) ∧
    (s.dreq.active = true → s.dreq.fifo = [] →
      ∃ (v : Word) (w : Nat) (u x t : State),
        exec (.rd16 .dreq (s.dreq.source.setWidth 32 <<< 1)) s = .next u ∧ u.result = .bus v w ∧
        (s.dreq.vram = true →
          x = { u with mem := x.mem } ∧
          WordStored u x (if s.fbSel then .vram0 else .vram1) (s.dreq.target.toNat % 65536) .word v) ∧
        (s.dreq.vram = false → exec (.wr16 .dreq (s.dreq.target.setWidth 32 <<< 1) v) u = .next x) ∧
        exec .dreqStep s = .next t ∧
        (s.dreq.length ≠ 1 → t = { x with
          dreq := { s.dreq with
            source := s.dreq.source + 1
            target := s.dreq.target + 1
            length := s.dreq.length - 1 }
          result := .none }) ∧
        (s.dreq.length = 1 → exec (.fbCommit .a) { x with
          dreq := { s.dreq with
            source := s.dreq.source + 1
            target := s.dreq.target + 1
            length := 0
            active := false
            dma := false } } = .next t))

/-- O37. A VRAM-fill transfer of L words performs exactly L steps, each storing the next SDRAM word in the writable
bank. From an active VRAM-fill transfer whose source words lie in SDRAM, after n steps, n at most the length L, the
first n words of the bank that was writable from target on (modulo the bank) hold the source words, no other byte of
memory differs, the addresses have advanced by n and the length is L - n; the transfer is active exactly while n <
L, and after L steps a further step is refused. That refusal is U13 of 93_implementation_defined.md read of a
DREQ_STEP without an active transfer (log entry 5), which the rules cited do not give. (Rests on R322, R323, R325.) -/
def Obligations.VramFillTransferMovesEveryWord : Prop :=
  ∀ (s : State) (n : Nat), s.dreq.active = true → s.dreq.dma = true → s.dreq.vram = true → s.dreq.fifo = [] →
    0x30000 ≤ s.dreq.source.toNat → s.dreq.source.toNat + s.dreq.length.toNat ≤ 0x50000 →
    n ≤ s.dreq.length.toNat → s.dreq.length ≠ 0 →
    let bank := if s.fbSel then MemId.vram0 else MemId.vram1
    ∃ t, execTimes .dreqStep n s = .next t ∧
      t.dreq = { s.dreq with
        source := s.dreq.source + BitVec.ofNat 24 n
        target := s.dreq.target + BitVec.ofNat 24 n
        length := s.dreq.length - BitVec.ofNat 16 n
        active := decide (n < s.dreq.length.toNat)
        dma := decide (n < s.dreq.length.toNat) } ∧
      (∀ k < n, readWord t bank ((s.dreq.target.toNat + k) % 65536) =
        readWord s .sdram (s.dreq.source.toNat - 0x30000 + k)) ∧
      (∀ x, (∀ k < n, x ≠ bank.loc (2 * ((s.dreq.target.toNat + k) % 65536)) ∧
        x ≠ bank.loc (2 * ((s.dreq.target.toNat + k) % 65536) + 1)) → readByte t x = readByte s x) ∧
      (n = s.dreq.length.toNat → exec .dreqStep t = .refused .notEnabled)

/-- O38. The six VDP registers read the live display registers, the autofill registers and the bank status. By any
initiator, without side effect: VDPMODE returns the live mode, lines and priority, VDPSHIFT the live dotshift,
AFLEN, AFADDR, AFDATA their registers; FBCTL returns the displayed bank, the two engagement flags computed from
state, the fill flag, the requested bank and the two blanking levels. (Rests on R40, R67, R68, R69, R71, R245.) -/
def Obligations.VdpRegistersReadTheLiveValues : Prop :=
  ∀ (i : Initiator) (l : Lanes) (s : State), MayIssue i s →
    (∃ v : Word, exec (.vdpmodeRd i l) s = .next { s with result := .bus (l.mask v) 0 } ∧
      v.extractLsb' 0 2 = (match s.vdp.live.mode with | .blank => 0 | .packed => 1 | .direct => 2 | .rle => 3) ∧
      v.extractLsb' 2 4 = 0 ∧ v.getLsbD 6 = s.vdp.live.lines ∧ v.getLsbD 7 = s.vdp.live.priority ∧
      v.extractLsb' 8 8 = 0) ∧
    (∃ v : Word, exec (.vdpshiftRd i l) s = .next { s with result := .bus (l.mask v) 0 } ∧
      v.getLsbD 0 = s.vdp.live.dotshift ∧ v.extractLsb' 1 15 = 0) ∧
    exec (.aflenRd i l) s = .next { s with result := .bus (l.mask (s.vdp.autofillLength.setWidth 16)) 0 } ∧
    exec (.afaddrRd i l) s = .next { s with result := .bus (l.mask s.vdp.autofillAddress) 0 } ∧
    exec (.afdataRd i l) s = .next { s with result := .bus (l.mask s.vdp.autofillData) 0 } ∧
    (∃ v : Word, exec (.fbctlRd i l) s = .next { s with result := .bus (l.mask v) 0 } ∧
      v.getLsbD 0 = s.fbSel ∧
      (v.getLsbD 1 = true ↔ (s.vdp.vblank = false ∧ s.vdp.latch.mode ≠ .blank) ∨ s.vdp.autofillActive = true ∨
        (s.dreq.active = true ∧ s.dreq.vram = true)) ∧
      (v.getLsbD 2 = true ↔ s.vdp.vblank = false ∧ (s.vdp.latch.mode = .packed ∨ s.vdp.latch.mode = .rle)) ∧
      v.getLsbD 3 = s.vdp.autofillActive ∧ v.getLsbD 4 = s.vdp.fbReq ∧ v.extractLsb' 5 9 = 0 ∧
      v.getLsbD 14 = s.vdp.hblank ∧ v.getLsbD 15 = s.vdp.vblank)

/-- O39. VDPMODE and VDPSHIFT change the live registers only; AFLEN, AFADDR, AFDATA set a fill up and start it, or are
ignored. With the lower lane VDPMODE sets the live mode, lines and priority and VDPSHIFT the live dotshift; with the
upper lane only nothing changes. The latch and everything else stay. With no fill active: AFLEN takes its low byte
through the lower lane, AFADDR merges its lanes, AFDATA merges its lanes and, with a non-zero length, makes the fill
active with that many words left. While a fill is active all three change nothing. No word is written by any of them
(decisions D2, D7). (Rests on R240, R241, R242, R243, R244.) -/
def Obligations.VdpRegisterWrites : Prop :=
  (∀ (i : Initiator) (l : Lanes) (d : Word) (s : State), MayIssue i s →
    (l = .upper → exec (.vdpmodeWr i l d) s = .next { s with result := .bus 0 0 } ∧
      exec (.vdpshiftWr i l d) s = .next { s with result := .bus 0 0 }) ∧
    (l ≠ .upper →
      (∃ mode : DisplayMode, mode.code = d.extractLsb' 0 2 ∧
        exec (.vdpmodeWr i l d) s = .next { s with
          vdp := { s.vdp with live := { s.vdp.live with
            mode := mode, lines := d.getLsbD 6, priority := d.getLsbD 7 } }
          result := .bus 0 0 }) ∧
      exec (.vdpshiftWr i l d) s = .next { s with
        vdp := { s.vdp with live := { s.vdp.live with dotshift := d.getLsbD 0 } }, result := .bus 0 0 })) ∧
    (∀ (i : Initiator) (l : Lanes) (d : Word) (s : State), MayIssue i s →
    (s.vdp.autofillActive = true → ∀ j ∈ [Instr.aflenWr i l d, .afaddrWr i l d, .afdataWr i l d],
      exec j s = .next { s with result := .bus 0 0 }) ∧
    (s.vdp.autofillActive = false →
      exec (.aflenWr i l d) s = .next { s with
        vdp := { s.vdp with autofillLength := if l = .upper then s.vdp.autofillLength else d.extractLsb' 0 8 }
        result := .bus 0 0 } ∧
      exec (.afaddrWr i l d) s = .next { s with
        vdp := { s.vdp with autofillAddress := l.merge s.vdp.autofillAddress d }, result := .bus 0 0 } ∧
      exec (.afdataWr i l d) s = .next { s with
        vdp := { s.vdp with
          autofillData := l.merge s.vdp.autofillData d
          autofillActive := decide (s.vdp.autofillLength ≠ 0)
          autofillRemaining := if s.vdp.autofillLength = 0 then s.vdp.autofillRemaining
            else s.vdp.autofillLength }
        result := .bus 0 0 }))

/-- O40. FB_COMMIT performs a queued swap exactly when nothing is engaged, by the one assignment to fbSel; SELECT_FB and
FBCTL queue a request and try it. While the framebuffer is engaged FB_COMMIT changes nothing; while it is not, the
displayed bank becomes the requested one and no word of a bank changes. SELECT_FB v, and a write of FBCTL with the
lower lane and v in bit 0, record the request and do the same; a write of FBCTL with the upper lane only changes
nothing. (Rests on R40, R246, R247.) -/
def Obligations.FbCommitSwapsOnlyWhileDisengaged : Prop :=
  ∀ (s : State) (thr : Agent) (v : Bool),
    (framebufferEngaged s = true ↔ (s.vdp.vblank = false ∧ s.vdp.latch.mode ≠ .blank) ∨
      s.vdp.autofillActive = true ∨ (s.dreq.active = true ∧ s.dreq.vram = true)) ∧
    exec (.fbCommit thr) s = .next { s with
      fbSel := if framebufferEngaged s then s.fbSel else s.vdp.fbReq, result := .none } ∧
    exec (.selectFb thr v) s = .next { s with
      vdp := { s.vdp with fbReq := v }
      fbSel := if framebufferEngaged s then s.fbSel else v
      result := .none } ∧
    ∀ (i : Initiator) (l : Lanes) (d : Word), MayIssue i s →
      (l = .upper → exec (.fbctlWr i l d) s = .next { s with result := .bus 0 0 }) ∧
      (l ≠ .upper → exec (.fbctlWr i l d) s = .next { s with
        vdp := { s.vdp with fbReq := d.getLsbD 0 }
        fbSel := if framebufferEngaged s then s.fbSel else d.getLsbD 0
        result := .bus 0 0 })

/-- O41. No operation but a core's step can leave the bank swapped with the framebuffer engaged. Over every operation
other than CORE_STEP: if it changes which bank is displayed, then after it the framebuffer is not engaged and the
displayed bank is the requested one. (A core's instruction may make several bus accesses, a swap and the start of a
fill among them.) (Rests on R72, R246, R247, R253.) -/
def Obligations.BankSwapsOnlyWhileDisengaged : Prop :=
  ∀ (j : Instr) (s t : State), j ≠ .coreStepM → j ≠ .coreStepS → exec j s = .next t → t.fbSel ≠ s.fbSel →
    framebufferEngaged t = false ∧ t.fbSel = t.vdp.fbReq

/-- O42. The rising edges of VBLANK and HBLANK do what their rules say, and other notifications store the level. In the
host's turn: on the 0-to-1 edge the four live display registers become the latched ones, the requested bank is
displayed unless a paint engages the framebuffer, and vint becomes active on both cores; otherwise only the level is
stored. LATCH_COMMIT alone copies the four registers (decisions D9, D13). In the host's turn: on the 0-to-1 edge,
when hcounter has reached hperiod it becomes 0 and hint becomes active on both cores, else it counts up; any other
notification stores the level (decision D26). (Rests on R250, R252, R251.) -/
def Obligations.BlankingEdges : Prop :=
  (∀ (s : State) (b : Bool),
    exec .latchCommit s = .next { s with vdp := { s.vdp with latch := s.vdp.live }, result := .none } ∧
    (HostTurn s →
      (s.vdp.vblank = true ∨ b = false →
        exec (.vblank b) s = .next { s with vdp := { s.vdp with vblank := b }, result := .none }) ∧
      (s.vdp.vblank = false → b = true →
        exec (.vblank b) s = .next { s with
          vdp := { s.vdp with vblank := true, latch := s.vdp.live }
          fbSel := if s.vdp.autofillActive || (s.dreq.active && s.dreq.vram) then s.fbSel else s.vdp.fbReq
          cores := ⟨{ s.cores.m with irq := { s.cores.m.irq with active := { s.cores.m.irq.active with vint := true } } },
            { s.cores.s with irq := { s.cores.s.irq with active := { s.cores.s.irq.active with vint := true } } }⟩
          result := .none }))) ∧
    (∀ (s : State) (b : Bool), HostTurn s →
    (s.vdp.hblank = true ∨ b = false →
      exec (.hblank b) s = .next { s with vdp := { s.vdp with hblank := b }, result := .none }) ∧
    (s.vdp.hblank = false → b = true → s.io.hcounter < s.io.hperiod →
      exec (.hblank b) s = .next { s with
        vdp := { s.vdp with hblank := true }
        io := { s.io with hcounter := s.io.hcounter + 1 }
        result := .none }) ∧
    (s.vdp.hblank = false → b = true → s.io.hperiod ≤ s.io.hcounter →
      exec (.hblank b) s = .next { s with
        vdp := { s.vdp with hblank := true }
        io := { s.io with hcounter := 0 }
        cores := ⟨{ s.cores.m with irq := { s.cores.m.irq with active := { s.cores.m.irq.active with hint := true } } },
          { s.cores.s with irq := { s.cores.s.irq with active := { s.cores.s.irq.active with hint := true } } }⟩
        result := .none }))

/-- O43. The latched display registers change only at the rising edge of VBLANK, in LATCH_COMMIT and in POWER. Over
every operation: if the latched mode, lines, priority or dotshift change, the operation is VBLANK 1 while the level
was 0, or LATCH_COMMIT, or POWER; in the first two the latch becomes the live registers. So no register write, by
whatever agent, reaches the line being displayed. (Rests on R37, R240, R241, R252.) -/
def Obligations.LatchIsWrittenAtVblankOnly : Prop :=
  ∀ (j : Instr) (s t : State), exec j s = .next t → t.vdp.latch ≠ s.vdp.latch →
    (j = .vblank true ∧ s.vdp.vblank = false ∧ t.vdp.latch = s.vdp.live) ∨
    (j = .latchCommit ∧ t.vdp.latch = s.vdp.live) ∨ ∃ r, j = .power r

/-- O44. A fill of L words performs exactly L steps, each writing the fill data at the next word of the writable bank.
From an active fill, after n steps, n at most the words left, the first n words of the bank that was writable from
the fill address on (the address wrapping at 0xFFFF) hold the data, no other byte of memory differs, the address has
advanced by n; the fill is active exactly while words are left, and then a further step is refused (U13; log entry
5). (Rests on R249.) -/
def Obligations.AutofillWritesEveryWord : Prop :=
  ∀ (s : State) (n : Nat), s.vdp.autofillActive = true → s.vdp.autofillRemaining ≠ 0 →
    n ≤ s.vdp.autofillRemaining.toNat →
    let bank := if s.fbSel then MemId.vram0 else MemId.vram1
    ∃ t, execTimes .autofillStep n s = .next t ∧
      t.vdp = { s.vdp with
        autofillAddress := s.vdp.autofillAddress + BitVec.ofNat 16 n
        autofillRemaining := s.vdp.autofillRemaining - BitVec.ofNat 8 n
        autofillActive := decide (n < s.vdp.autofillRemaining.toNat) } ∧
      (∀ k < n, readWord t bank ((s.vdp.autofillAddress.toNat + k) % 65536) = s.vdp.autofillData) ∧
      (∀ x, (∀ k < n, x ≠ bank.loc (2 * ((s.vdp.autofillAddress.toNat + k) % 65536)) ∧
        x ≠ bank.loc (2 * ((s.vdp.autofillAddress.toNat + k) % 65536) + 1)) → readByte t x = readByte s x) ∧
      (n = s.vdp.autofillRemaining.toNat → exec .autofillStep t = .refused .notEnabled)

/-- O45. SCANLINE plots the 320 pixels of an active line by the latched mode and changes no state of the block. In the
host's turn, for every line index: in blank mode or beyond the active lines the buffer is unchanged; else each of
the 320 pixels fills four buffer entries with the entry of its colour, which is the word at base + x in direct mode,
the palette entry of the 4-bit index in packed mode, and the palette entry of the span that covers x in RLE mode.
The buffer keeps its length and nothing else changes. The pixel formats are the spec's own (decision D14); the
buffer is the caller's (log entry 16). (Rests on R256, R257, R258, R259, R260, R261, R262.) -/
def Obligations.ScanlinePlotsEachPixel : Prop :=
  ∀ (s : State) (y : BitVec 9), HostTurn s →
    (s.vdp.latch.mode = .blank ∨ (if s.vdp.latch.lines then 240 else 224) ≤ y.toNat →
      exec (.scanline y) s = .next { s with result := .none }) ∧
    (s.vdp.latch.mode ≠ .blank → y.toNat < (if s.vdp.latch.lines then 240 else 224) → s.pixels.length = 1280 →
      let base := (shownWord s y.toNat).toNat
      ∃ px : List (BitVec 32), exec (.scanline y) s = .next { s with pixels := px, result := .none } ∧
        px.length = 1280 ∧
        (s.vdp.latch.mode = .direct → ∀ x < 320, ∀ k < 4,
          px[4 * x + k]? = some (shownEntry s.vdp.latch.priority (shownWord s (base + x)))) ∧
        (s.vdp.latch.mode = .packed → ∀ x < 320, ∀ k < 4,
          let p := if s.vdp.latch.dotshift then x + 1 else x
          let w := (shownWord s (base + p / 2)).toNat
          px[4 * x + k]? = some (shownEntry s.vdp.latch.priority
            (readWord s .palette (if p % 2 = 0 then w / 16 % 16 else w % 16)))) ∧
        (s.vdp.latch.mode = .rle → ∀ n, ∀ x < 320, spanStart s base n ≤ x → x < spanStart s base (n + 1) → ∀ k < 4,
          px[4 * x + k]? = some (shownEntry s.vdp.latch.priority
            (readWord s .palette (loByte (shownWord s (base + n))).toNat))))

/-- O46. A core held by adapterReset or gated by DREQ executes nothing, consumes one cycle and checks its partners.
CORE_STEP of a core in its turn, while adapterReset is 1 or a transfer is active: no instruction, no interrupt, no
bus transaction; its clock and both deficits advance by one and the deficits are compared with the thresholds,
queueing the other core and the audio engine, then the host. One idle cycle per held step is the spec's default (log
entry 13). (Rests on R151, R153, R154, R155, R156.) -/
def Obligations.HeldOrGatedCoreOnlyLetsTimePass : Prop :=
  ∀ (c : CoreId) (s : State), CoreTurn c s → s.io.adapterReset = true ∨ s.dreq.active = true →
    ∃ t, exec (coreStepOf c) s = .next t ∧ Accounts c 1 s t

/-- O47. A normal CORE_STEP takes the highest pending interrupt the engine accepts, then runs one instruction and
accounts its cycles and waits. In a core's turn with neither adapterReset nor a transfer: if the query answers a
source whose level the engine accepts, the core first dispatches it; then the engine's program of bus calls is
performed in order with the core as initiator; the core ends with the registers the program gives, and consumes its
cycles plus all waits, at least one. Where a write of the instruction itself makes the 0-to-1 edge of adapterReset,
the core keeps the registers loaded at that edge, as the other core does: both end at their reset vectors;
adapterReset can be 1 at the end only after such an edge. That the loaded registers stand also where the instruction
clears the bit again is the model's choice (log entry 8). (Rests on R97, R150, R152, R154, R155, R156, R341.) -/
def Obligations.NormalCoreStepRunsOneInstruction : Prop :=
  ∀ (c : CoreId) (s : State), CoreTurn c s → s.io.adapterReset = false → s.dreq.active = false →
    let s1 := match irqQuery c s with
      | some k => if Config.engineAccepts (s.cores.get c).regs (Config.irqLevel k) then (irqDispatch c k s).2 else s
      | none => s
    let prog := Config.engineExec (s1.cores.get c).regs
    let done := runProgram c prog 0 s1
    ∃ t, exec (coreStepOf c) s = .next t ∧ 1 ≤ done.2.1 ∧
      Accounts c done.2.1 (if reloadsDuring c prog s1 then done.2.2 else setRegs done.2.2 c done.1) t ∧
      (done.2.2.io.adapterReset = true → reloadsDuring c prog s1 = true) ∧
      (reloadsDuring c prog s1 = true → MemInv s → ∀ x : CoreId,
        (t.cores.get x).regs = engineResetRegs (joinWords (Config.bootImage x 0) (Config.bootImage x 1)))

/-- O48. Each call of a core's instruction is the bus transaction of that core, and the waits add up. For any program of
calls: a word read or write, or a byte access, is the generic transaction of the core at that address on that lane,
and a long is two word transactions, at the even address and at that address plus 2 in the state the first left, the
upper half first; the program goes on with what it returned, in the state it left, and its wait is added to the
instruction's cycles; a program that is done gives its registers and its cycles plus the waits. (Rests on R90, R97,
R150, R196.) -/
def Obligations.EngineCallsAreBusTransactions : Prop :=
  ∀ (c : CoreId) (a v : Long) (w : Nat) (s : State),
    (∀ r extra, runProgram c (.done r extra) w s = (r, extra + 1 + w, s)) ∧
    (∀ k, ∃ x n u, exec (.rd16 c.init a) s = .next u ∧ u.result = .bus x n ∧
      runProgram c (.read a .word k) w s = runProgram c (k (x.setWidth 32) n) (w + n) { u with result := s.result }) ∧
    (∀ k, ∃ x n u, exec (if a.getLsbD 0 then .rd8l c.init a else .rd8u c.init a) s = .next u ∧
      u.result = .bus x n ∧
      runProgram c (.read a .byte k) w s = runProgram c
        (k (if a.getLsbD 0 then x.setWidth 32 else (x >>> 8).setWidth 32) n) (w + n) { u with result := s.result }) ∧
    (∀ k, ∃ n u, exec (.wr16 c.init a (v.extractLsb' 0 16)) s = .next u ∧ u.result = .bus 0 n ∧
      runProgram c (.write a .word v k) w s = runProgram c (k n) (w + n) { u with result := s.result }) ∧
    (∀ k, ∃ n u, exec (if a.getLsbD 0 then .wr8l c.init a (v.extractLsb' 0 8 ++ v.extractLsb' 0 8)
        else .wr8u c.init a (v.extractLsb' 0 8 ++ v.extractLsb' 0 8)) s = .next u ∧ u.result = .bus 0 n ∧
      runProgram c (.write a .byte v k) w s = runProgram c (k n) (w + n) { u with result := s.result }) ∧
    (∀ k, ∃ hi n1 u1 lo n2 u2, exec (.rd16 c.init (a &&& 0xFFFFFFFE)) s = .next u1 ∧ u1.result = .bus hi n1 ∧
      exec (.rd16 c.init ((a &&& 0xFFFFFFFE) + 2)) u1 = .next u2 ∧ u2.result = .bus lo n2 ∧
      runProgram c (.read a .long k) w s =
        runProgram c (k (hi ++ lo) (n1 + n2)) (w + (n1 + n2)) { u2 with result := s.result }) ∧
    (∀ k, ∃ n1 u1 n2 u2, exec (.wr16 c.init (a &&& 0xFFFFFFFE) (v.extractLsb' 16 16)) s = .next u1 ∧
      u1.result = .bus 0 n1 ∧
      exec (.wr16 c.init ((a &&& 0xFFFFFFFE) + 2) (v.extractLsb' 0 16)) u1 = .next u2 ∧ u2.result = .bus 0 n2 ∧
      runProgram c (.write a .long v k) w s =
        runProgram c (k (n1 + n2)) (w + (n1 + n2)) { u2 with result := s.result })

/-- O49. Whatever its engine does, a CORE_STEP leaves the token, the other agents' clocks and queues, and the other
core's counters. For every state and every engine: a step of core c keeps the token, which threads exist, every
clock and every queue but its own, the deficits of the other core, all thresholds, the latched display registers,
the audio output and the host's side; its own clock moves by the cycles the body of the step consumes, at least one
(modulo 2^64): one while held or gated, else those of the instruction with its waits, which the two statements
before state. (Rests on R150, R151, R155, R164.) -/
def Obligations.CoreStepLeavesTheOtherAgents : Prop :=
  ∀ (c : CoreId) (s t : State), exec (coreStepOf c) s = .next t →
    t.token = s.token ∧ (∀ x, t.alive x = s.alive x) ∧
    (∀ x, x ≠ c.agent → t.clk.get x = s.clk.get x ∧ t.pend.get x = s.pend.get x) ∧
    (t.cores.get c.other).cyclesUntilSh2Sync = (s.cores.get c.other).cyclesUntilSh2Sync ∧
    (t.cores.get c.other).cyclesUntilM68kSync = (s.cores.get c.other).cyclesUntilM68kSync ∧
    (∀ x, (t.cores.get x).minCyclesBetweenSh2Syncs = (s.cores.get x).minCyclesBetweenSh2Syncs ∧
      (t.cores.get x).minCyclesBetweenM68kSyncs = (s.cores.get x).minCyclesBetweenM68kSyncs) ∧
    t.vdp.latch = s.vdp.latch ∧ t.audioOut = s.audioOut ∧ t.ops = s.ops ∧ t.pixels = s.pixels ∧
    t.powerOns = s.powerOns ∧
    1 ≤ (coreBody c s).1 ∧ t.clk.get c.agent = s.clk.get c.agent + BitVec.ofNat 64 (coreBody c s).1 ∧
    (s.io.adapterReset = true ∨ s.dreq.active = true → (coreBody c s).1 = 1) ∧ t.inside = s.inside

/-- O50. SYNC_RESOLVE passes the token to the first queued partner when it exists and is behind, else drops it from the
queue. For each of the four agents that exists, holding the token with a partner queued: when the partner exists
(the host always does) and its clock is strictly less, the token passes and the queue is kept; otherwise the partner
is dropped and the token is kept. Nothing else changes (decision D6). (Rests on R28, R157.) -/
def Obligations.SyncResolveYieldsToAPartnerBehind : Prop :=
  ∀ (t p : Agent) (rest : List Agent) (s : State), s.token = t → s.alive t = true → s.pend.get t = p :: rest →
    ((s.alive p = true ∧ s.clk.get p < s.clk.get t) →
      exec (.syncResolve t) s = .next { s with token := p, result := .none }) ∧
    (¬ (s.alive p = true ∧ s.clk.get p < s.clk.get t) →
      exec (.syncResolve t) s = .next { s with pend := s.pend.set t rest, result := .none })

/-- O51. AUDIO_STEP is the PWM timer step, then a DREQ step and an autofill step where they are active, one cycle, and a
synchronisation. In the audio engine's turn the step completes and is PWM_TIMER_STEP, then DREQ_STEP if a transfer
is active, then AUTOFILL_STEP if a fill is active, in this order; then the clock of A moves by one and its queue
becomes M, S, H (decision D7). (Rests on R158.) -/
def Obligations.AudioStepRunsItsThreeParts : Prop :=
  ∀ (s : State), AudioTurn s →
    ∃ s1 s2 s3, exec .pwmTimerStep s = .next s1 ∧
      (s1.dreq.active = true → exec .dreqStep s1 = .next s2) ∧ (s1.dreq.active = false → s2 = s1) ∧
      (s2.vdp.autofillActive = true → exec .autofillStep s2 = .next s3) ∧
      (s2.vdp.autofillActive = false → s3 = s2) ∧
      exec .audioStep s = .next { s3 with
        clk := s3.clk.set .a (s3.clk.a + 1), pend := s3.pend.set .a [.m, .s, .h], result := .none }

/-- O52. HOST_ADVANCE, HOST_SYNC, RESTART and UNLOAD do to the scheduler what their rules say, and nothing else. In the
host's turn: HOST_ADVANCE n adds n to the host's clock modulo 2^64; HOST_SYNC makes the host's queue M, S, A. No
thread runs in either (decision D24). In the host's turn: RESTART empties every queue, gives the token to the host
and, with resetEnable 1, makes vres active on both cores; UNLOAD makes the three threads not exist, empties every
queue and gives the token to the host. Everything else stays (decisions D29, D30). That RESTART does the same before
any POWER, where R395's corner case says it only sets the token, is the model's choice (log entry 30). (Rests on
R160, R161, R395, R396.) -/
def Obligations.HostSchedulerEvents : Prop :=
  (∀ (s : State) (n : BitVec 32), HostTurn s →
    exec (.hostAdvance n) s = .next { s with
      clk := { s.clk with h := s.clk.h + BitVec.ofNat 64 n.toNat }, result := .none } ∧
    exec .hostSync s = .next { s with pend := { s.pend with h := [.m, .s, .a] }, result := .none }) ∧
    (∀ (s : State), HostTurn s →
    (s.io.resetEnable = false →
      exec .restart s = .next { s with pend := ⟨[], [], [], []⟩, token := .h, result := .none }) ∧
    (s.io.resetEnable = true →
      exec .restart s = .next { s with
        pend := ⟨[], [], [], []⟩
        token := .h
        cores := ⟨{ s.cores.m with irq := { s.cores.m.irq with active := { s.cores.m.irq.active with vres := true } } },
          { s.cores.s with irq := { s.cores.s.irq with active := { s.cores.s.irq.active with vres := true } } }⟩
        result := .none }) ∧
    exec .unload s = .next { s with
      aliveM := false, aliveS := false, aliveA := false, pend := ⟨[], [], [], []⟩, token := .h, result := .none })

/-- O53. A host operation out of the host's turn, a thread's step out of its turn and an inner operation outside its
caller have no transition. While the host does not hold the token or is synchronising, every event and every
transaction of the host is refused; CORE_STEP, AUDIO_STEP and SYNC_RESOLVE are refused to an agent that does not
hold the token, does not exist or is in the wrong phase (U13 of 93_implementation_defined.md; log entry 29), so
while the token holder does not exist no step answers a next state. A step refuses a presented transaction of a core
unless a normal step of that core is in progress and the core holds the token, exists and is not synchronising; a
presented transaction of DREQ unless DREQ_STEP is in progress, in the audio engine's step, and a transfer is active;
a presented sub-procedure unless an operation of its performer that calls it is in progress; and every host
operation while any operation is in progress. So at the boundaries between steps, where none is in progress, and in
a synchronisation none of these is performed, and a held or gated step, which is no normal one, makes no
transaction. Inside its normal step, and inside DREQ_STEP, the transaction is performed. The field that says inside
which operation is the model's (log entry 4). (Rests on R28, R123, R125, R151, R157, R158, R159, R162, R204.) -/
def Obligations.OperationsOutOfTurnAreRefused : Prop :=
  (∀ (s : State),
      (¬ HostTurn s →
        (∀ (l : Lanes) (a : Long) (d : Word), exec (readOn l .h a) s = .refused .notEnabled ∧
          exec (writeOn l .h a d) s = .refused .notEnabled) ∧
        (∀ (b : Bool) (y : BitVec 9) (n : BitVec 32), ∀ j ∈ [Instr.power b, .restart, .unload, .vblank b, .hblank b,
          .scanline y, .hostAdvance n, .hostSync], exec j s = .refused .notEnabled)) ∧
      (∀ c, ¬ CoreTurn c s → exec (coreStepOf c) s = .refused .notEnabled) ∧
      (¬ AudioTurn s → exec .audioStep s = .refused .notEnabled) ∧
      (∀ t, (s.token ≠ t ∨ s.alive t = false ∨ s.pend.get t = []) →
        exec (.syncResolve t) s = .refused .notEnabled) ∧
      (s.alive s.token = false → ∀ t, step s ≠ .next t)) ∧
    ∀ (s : State) (w : OpWord) (rest : List OpWord),
      HostTurn s ∨ s.inside ≠ none ∨ s.alive s.token = false → s.ops = w :: rest →
      (∀ (i : Initiator) (l : Lanes) (a : Long) (d : Word) (j : Instr), j = readOn l i a ∨ j = writeOn l i a d →
        decodeAt .generic w = some j →
        (∀ c : CoreId, i = c.init →
          (s.inside = some (.normalStep c) ∧ CoreTurn c s → step s = exec j { s with ops := rest }) ∧
          (¬ (s.inside = some (.normalStep c) ∧ CoreTurn c s) → step s = .refused .notEnabled)) ∧
        (i = .dreq →
          (s.inside = some .dreqStep ∧ AudioTurn s ∧ s.dreq.active = true → step s = exec j { s with ops := rest }) ∧
          (¬ (s.inside = some .dreqStep ∧ AudioTurn s ∧ s.dreq.active = true) → step s = .refused .notEnabled)) ∧
        (i = .h → s.inside ≠ none → step s = .refused .notEnabled)) ∧
      (∀ ch : Channel, ¬ (s.inside = some .audioStep ∧ AudioTurn s) →
        decode w ∈ [some .pwmTimerStep, some .sampleTick, some (.fifoRead ch), some (.fifoDrain ch), some .dreqStep,
          some .autofillStep] → step s = .refused .notEnabled) ∧
      (∀ (thr : Agent) (c : CoreId) (ch : Channel) (k : Source) (v : BitVec 12) (b : Bool),
        s.token ≠ thr ∨ s.pend.get thr ≠ [] ∨ (∀ op ∈ callers thr, s.inside ≠ some op) →
        decode w ∈ [some (.fifoWrite thr ch v), some (.irqRaise thr c k), some (.fbCommit thr),
          some (.selectFb thr b)] → step s = .refused .notEnabled) ∧
      (∀ (ch : Channel) (v : BitVec 12) (b : Bool), s.inside ≠ some .dreqStep →
        decode w ∈ [some (.fifoWrite .a ch v), some (.selectFb .a b)] → step s = .refused .notEnabled) ∧
      (¬ (s.inside = some .host ∧ HostTurn s) → decode w = some .latchCommit → step s = .refused .notEnabled) ∧
      (∀ k : Source, ¬ (s.inside = some (.normalStep .m) ∧ CoreTurn .m s) →
        decode w ∈ [some .irqQueryM, some (.irqDispatchM k)] → step s = .refused .notEnabled) ∧
      (∀ k : Source, ¬ (s.inside = some (.normalStep .s) ∧ CoreTurn .s s) →
        decode w ∈ [some .irqQueryS, some (.irqDispatchS k)] → step s = .refused .notEnabled) ∧
      (ValidEvent w → s.inside ≠ none → step s = .refused .notEnabled)

/-- O54. POWER returns every piece of state to its reset value; a warm one keeps the memories, a cold one leaves them
free. In the host's turn: every field takes its value at State.reset, whatever it was, the cores' registers included
(their pc read from the boot images); after POWER 1 every byte of palette, VRAM and SDRAM is kept, after POWER 0 it
is the free value of the new power-on (log entry 10); the boot ROMs hold the boot images. So it is also from the
state before the first POWER, in which no thread exists and the token is the host's (U14; log entry 17), once its
queue is empty. The host's own lists stay (log entry 28). (Rests on R28, R32, R390, R391, R397.) -/
def Obligations.PowerReinitialisesEverything : Prop :=
  ∀ (r : Bool) (s : State), HostTurn s → ∃ t, exec (.power r) s = .next t ∧
    t = { State.reset with
      mem := t.mem, powerOns := if r then s.powerOns else s.powerOns + 1, ops := s.ops, pixels := s.pixels } ∧
    (∀ x, 0x8000 ≤ x → readByte t x = if r then readByte s x else Config.coldByte (s.powerOns + 1) x) ∧
    (∀ c w, w < 0x2000 → readWord t (bootMem c) w = Config.bootImage c w) ∧
    (∀ u : State, s = u.unpowered → (∀ x, x ≠ .h → s.alive x = false) ∧ (∀ x, t.alive x = true))

/-- O55. The reset state holds the values of the reset table, and its registers read as the spec lists them. Every value
of R397 (the spec's own choices of decision D21 among them) at State.reset, and the read values of R398: ADAPTER
0x0002, PWML and PWMR 0x4000, FBCTL 0x8000, and 0 for every other register. Before the first POWER the three alive
bits are 0, the token is the host's and no core steps (log entry 17). (Rests on R28, R391, R397, R398.) -/
def Obligations.ResetStateHoldsTheResetValues : Prop :=
  State.reset.token = .h ∧ (∀ x, State.reset.clk.get x = 0 ∧ State.reset.pend.get x = [] ∧
      State.reset.alive x = true) ∧
    (∀ c, (State.reset.cores.get c).cyclesUntilSh2Sync = 0 ∧ (State.reset.cores.get c).cyclesUntilM68kSync = 0 ∧
      (State.reset.cores.get c).minCyclesBetweenSh2Syncs = Config.cfgMinSh2 c ∧
      (State.reset.cores.get c).minCyclesBetweenM68kSyncs = Config.cfgMinM68k c ∧
      (∀ k, (State.reset.cores.get c).irq.enable.get k = false ∧ (State.reset.cores.get c).irq.active.get k = false) ∧
      (State.reset.cores.get c).regs.pc = joinWords (Config.bootImage c 0) (Config.bootImage c 1)) ∧
    State.reset.fbSel = false ∧ State.reset.vdp.fbReq = false ∧ State.reset.vdp.vblank = true ∧
    State.reset.vdp.hblank = false ∧ State.reset.vdp.live = ⟨.blank, false, false, false⟩ ∧
    State.reset.vdp.latch = ⟨.blank, false, false, false⟩ ∧ State.reset.vdp.autofillLength = 0 ∧
    State.reset.vdp.autofillAddress = 0 ∧ State.reset.vdp.autofillData = 0 ∧
    State.reset.vdp.autofillActive = false ∧ State.reset.vdp.autofillRemaining = 0 ∧
    State.reset.pwm = ⟨0, 0, false, false, 0, 0, ⟨[], []⟩, ⟨0, 0⟩, ⟨dcFilter.init, dcFilter.init⟩, 16, 0⟩ ∧
    State.reset.dreq = ⟨false, false, false, 0, 0, 0, []⟩ ∧
    State.reset.io = ⟨false, true, false, false, 0, 0, 0⟩ ∧ (∀ n : Fin 8, State.reset.mailbox[n] = 0) ∧
    State.reset.audioOut = [] ∧ State.reset.extLog = [] ∧ State.reset.inside = none ∧
    (∀ s : State, (∀ x, s.unpowered.alive x = decide (x = .h)) ∧ s.unpowered.token = .h ∧
      ∀ c, exec (coreStepOf c) s.unpowered = .refused .notEnabled) ∧
    (∀ (i : Initiator) (r : Reg), exec (r.readInstr i .word) State.reset = .next { State.reset with
      result := .bus (match r with
        | .adapter => 0x0002
        | .pwml => 0x4000
        | .pwmr => 0x4000
        | .fbctl => 0x8000
        | _ => 0) 0 })

/-- O56. The invariant of the block and the skew bound hold in the reset state. State.reset meets Inv and SkewInv.
(Rests on R72, R73, R397.) -/
def Obligations.InvariantHoldsAtReset : Prop :=
  Inv State.reset ∧ SkewInv State.reset

/-- O57. Every step keeps the invariant of the block. From every state that meets Inv, a step that answers a next state
gives one that meets Inv: the memory is in canonical form and lists writable locations only; DREQ: dma = active,
active implies words left, FIFO empty; a fill is active exactly while words are left; the PWM FIFOs hold at most 3
entries, periods is that of the timer, the counter is below it; the thresholds are the configured ones and each
deficit is 0 or below its threshold; the token holder exists; no agent waits for itself or for more than three
partners; the caller's buffer keeps its length; while adapterReset is 1 each core is at its reset vector. No step
leaves an operation in progress that was not (the model's field, log entry 4). Whatever the engine, the boot images,
the external space and the thresholds are. (Rests on R25, R72, R73, R154, R156, R291, R300, R341.) -/
def Obligations.InvariantIsKeptByEveryStep : Prop :=
  ∀ (s t : State), Inv s → step s = .next t → Inv t ∧ (s.inside = none → t.inside = none)

/-- O58. Every step but RESTART keeps the bound on how far a thread runs ahead of a partner it need not check. From
every state that meets SkewInv, a step that answers a next state, in which no clock goes back (no wrap of 2^64 and
no POWER) and which does not perform RESTART (which drops the synchronisations in progress, log entry 26), gives one
that meets SkewInv: each existing core is ahead of the other core and of the audio engine by no more than its SH2
deficit, and of the host by no more than its M68K deficit, unless that partner is still in its queue; the audio
engine is not ahead of a partner it has checked. (Rests on R163, R155, R156, R157, R158.) -/
def Obligations.SkewBoundIsKeptByEveryStep : Prop :=
  ∀ (s t : State), SkewInv s → ClocksRise s t →
    (∀ w rest, internalStep s = none → s.ops = w :: rest → decode w ≠ some .restart) →
    step s = .next t → SkewInv t

/-- O59. When a core starts a step it is ahead of each partner by less than the threshold of that tier. In every state
that meets both invariants, a core in its turn is ahead of the other core and of the audio engine, where they exist,
by at most max(SH2 threshold, 1) - 1, and of the host by at most max(M68K threshold, 1) - 1; the audio engine in its
turn is ahead of no existing agent. (Rests on R163.) -/
def Obligations.SkewIsBoundedByTheThresholds : Prop :=
  ∀ (s : State), Inv s → SkewInv s →
    (∀ c, CoreTurn c s →
      (∀ p, p = c.other.agent ∨ p = .a → s.alive p = true →
        (s.clk.get c.agent).toNat ≤
          (s.clk.get p).toNat + (max (s.cores.get c).minCyclesBetweenSh2Syncs.toNat 1 - 1)) ∧
      (s.clk.get c.agent).toNat ≤
        (s.clk.h).toNat + (max (s.cores.get c).minCyclesBetweenM68kSyncs.toNat 1 - 1)) ∧
    (AudioTurn s → ∀ p, s.alive p = true → (s.clk.a).toNat ≤ (s.clk.get p).toNat)

/-- O60. The boot ROMs hold the boot images after POWER and after every step. After POWER, and in every state that meets
the invariant and after every step from it, every word of each core's boot ROM reads as its boot image. (States
R32.) -/
def Obligations.BootRomsNeverChange : Prop :=
  (∀ (r : Bool) (s t : State) (c : CoreId) (w : Nat), exec (.power r) s = .next t → w < Config.bootromWords c →
      readWord t (bootMem c) w = Config.bootImage c w) ∧
    (∀ (s t : State) (c : CoreId) (w : Nat), Inv s → w < Config.bootromWords c →
      readWord s (bootMem c) w = Config.bootImage c w ∧
      (step s = .next t → readWord t (bootMem c) w = Config.bootImage c w))

end
end

