-- ==== Sys2Proof/Laws/Encoding.lean ====
section
/-! SUPPORT. The fields of the encoded words and what the decoder makes of them. -/

namespace Sys2Proof.Laws

/-! ### Fields of an appended word -/

theorem field_low {m n start len : Nat} (x : BitVec m) (y : BitVec n) (h : start + len ≤ n) :
    (x ++ y).extractLsb' start len = y.extractLsb' start len := by
  ext k hk
  simp [BitVec.getElem_extractLsb', BitVec.getLsbD_append]
  omega

theorem field_high {m n start len : Nat} (x : BitVec m) (y : BitVec n) (h : n ≤ start) :
    (x ++ y).extractLsb' start len = x.extractLsb' (start - n) len := by
  ext k hk
  have hlt : ¬ (start + k < n) := by omega
  simp [BitVec.getElem_extractLsb', BitVec.getLsbD_append, hlt]
  congr 1
  omega

theorem field_whole {n : Nat} (x : BitVec n) : x.extractLsb' 0 n = x := by simp

theorem toNat_append_eq {m n : Nat} (x : BitVec m) (y : BitVec n) :
    (x ++ y).toNat = x.toNat * 2 ^ n + y.toNat := by
  rw [BitVec.toNat_append, ← Nat.shiftLeft_add_eq_or_of_lt y.isLt, Nat.shiftLeft_eq]

theorem setWidth_append_low {m n : Nat} (x : BitVec m) (y : BitVec n) : (x ++ y).setWidth n = y := by
  ext k hk
  simp [BitVec.getLsbD_append, hk]

/-! ### Codes -/

@[simp] theorem initOf_code (i : Initiator) : initOf i.code = i := by cases i <;> rfl
@[simp] theorem agentOf_code (t : Agent) : agentOf t.code = t := by cases t <;> rfl
@[simp] theorem sourceOf_code (src : Source) : sourceOf src.code = some src := by cases src <;> rfl
@[simp] theorem channelOf_code (ch : Channel) : channelOf ch.code = ch := by cases ch <;> rfl
@[simp] theorem coreOf_code (c : CoreId) : coreOf c.code = c := by cases c <;> rfl
@[simp] theorem dirOf_code (rw : Dir) : dirOf rw.code = rw := by cases rw <;> rfl
@[simp] theorem lanesOf_code (ln : Lanes) : lanesOf ln.code = some ln := by cases ln <;> rfl
@[simp] theorem flagOf_bit (b : Bool) : flagOf (bit b) = b := by cases b <;> rfl

/-! ### The three formats -/

/-- The decoder reads a format B word's fields back. -/
theorem decodeAt_busWord (lvl : Level) (i : Initiator) (rw : Dir) (ul : BitVec 2) (a : Long) (d : Word) :
    decodeAt lvl (busWord i rw ul a d) = decodeBus lvl i rw ul 0 a d := by
  have hclass : (busWord i rw ul a d).extractLsb' 60 4 = 1 :=
    (field_high _ _ (by omega)).trans ((field_high _ _ (by omega)).trans ((field_high _ _ (by omega)).trans
      ((field_high _ _ (by omega)).trans ((field_high _ _ (by omega)).trans
      ((field_high _ _ (by omega)).trans (field_whole _))))))
  have hinit : (busWord i rw ul a d).extractLsb' 58 2 = i.code :=
    (field_high _ _ (by omega)).trans ((field_high _ _ (by omega)).trans ((field_high _ _ (by omega)).trans
      ((field_high _ _ (by omega)).trans ((field_high _ _ (by omega)).trans
      ((field_low _ _ (by omega)).trans (field_whole _))))))
  have hrw : (busWord i rw ul a d).extractLsb' 57 1 = rw.code :=
    (field_high _ _ (by omega)).trans ((field_high _ _ (by omega)).trans ((field_high _ _ (by omega)).trans
      ((field_high _ _ (by omega)).trans ((field_low _ _ (by omega)).trans (field_whole _)))))
  have hul : (busWord i rw ul a d).extractLsb' 55 2 = ul :=
    (field_high _ _ (by omega)).trans ((field_high _ _ (by omega)).trans ((field_high _ _ (by omega)).trans
      ((field_low _ _ (by omega)).trans (field_whole _))))
  have hz : (busWord i rw ul a d).extractLsb' 48 7 = 0 :=
    (field_high _ _ (by omega)).trans ((field_high _ _ (by omega)).trans
      ((field_low _ _ (by omega)).trans (field_whole _)))
  have ha : (busWord i rw ul a d).extractLsb' 16 32 = a :=
    (field_high _ _ (by omega)).trans ((field_low _ _ (by omega)).trans (field_whole _))
  have hd : (busWord i rw ul a d).extractLsb' 0 16 = d := (field_low _ _ (by omega)).trans (field_whole _)
  unfold decodeAt
  rw [hclass, hinit, hrw, hul, hz, ha, hd, if_pos rfl, initOf_code, dirOf_code]

/-- The decoder reads a format E word's fields back. -/
theorem decodeAt_eventWord (lvl : Level) (op : BitVec 8) (arg : BitVec 32) :
    decodeAt lvl (eventWord op arg) = decodeEvent op 0 arg := by
  have hclass : (eventWord op arg).extractLsb' 60 4 = 2 :=
    (field_high _ _ (by omega)).trans ((field_high _ _ (by omega)).trans
      ((field_high _ _ (by omega)).trans (field_whole _)))
  have hop : (eventWord op arg).extractLsb' 52 8 = op :=
    (field_high _ _ (by omega)).trans ((field_high _ _ (by omega)).trans
      ((field_low _ _ (by omega)).trans (field_whole _)))
  have hz : (eventWord op arg).extractLsb' 32 20 = 0 :=
    (field_high _ _ (by omega)).trans ((field_low _ _ (by omega)).trans (field_whole _))
  have harg : (eventWord op arg).extractLsb' 0 32 = arg := (field_low _ _ (by omega)).trans (field_whole _)
  unfold decodeAt
  rw [hclass, hop, hz, harg, if_neg (by decide), if_pos rfl]

/-- The decoder reads a format I word's fields back. -/
theorem decodeAt_internalWord (lvl : Level) (op : BitVec 8) (thr : BitVec 2) (arg : BitVec 32) :
    decodeAt lvl (internalWord op thr arg) = decodeInternal op thr 0 arg := by
  have hclass : (internalWord op thr arg).extractLsb' 60 4 = 3 :=
    (field_high _ _ (by omega)).trans ((field_high _ _ (by omega)).trans ((field_high _ _ (by omega)).trans
      ((field_high _ _ (by omega)).trans (field_whole _))))
  have hop : (internalWord op thr arg).extractLsb' 52 8 = op :=
    (field_high _ _ (by omega)).trans ((field_high _ _ (by omega)).trans ((field_high _ _ (by omega)).trans
      ((field_low _ _ (by omega)).trans (field_whole _))))
  have hthr : (internalWord op thr arg).extractLsb' 50 2 = thr :=
    (field_high _ _ (by omega)).trans ((field_high _ _ (by omega)).trans
      ((field_low _ _ (by omega)).trans (field_whole _)))
  have hz : (internalWord op thr arg).extractLsb' 32 18 = 0 :=
    (field_high _ _ (by omega)).trans ((field_low _ _ (by omega)).trans (field_whole _))
  have harg : (internalWord op thr arg).extractLsb' 0 32 = arg := (field_low _ _ (by omega)).trans (field_whole _)
  unfold decodeAt
  rw [hclass, hop, hthr, hz, harg, if_neg (by decide), if_neg (by decide), if_pos rfl]

/-- A format B word with a lane selected, at level generic. -/
theorem decode_generic_busWord (i : Initiator) (rw : Dir) (ln : Lanes) (a : Long) (d : Word)
    (h : rw.dataOk d = true) :
    decodeAt .generic (busWord i rw ln.code a d) = some (genericInstr i rw ln a d) := by
  simp [decodeAt_busWord, decodeBus, h]

/-- A format B word with a lane selected, at level target. -/
theorem decode_target_busWord (i : Initiator) (rw : Dir) (ln : Lanes) (a : Long) (d : Word)
    (h : rw.dataOk d = true) :
    decodeAt .target (busWord i rw ln.code a d) = some (targetInstr i rw ln a d) := by
  simp [decodeAt_busWord, decodeBus, h]

@[simp] theorem dataOk_read_zero : Dir.dataOk .read 0 = true := rfl
@[simp] theorem dataOk_write (d : Word) : Dir.dataOk .write d = true := rfl

/-! ### Arguments -/

@[simp] theorem flagArg_high (b : Bool) : (flagArg b).extractLsb' 1 31 = 0 := by cases b <;> rfl
@[simp] theorem flagArg_low (b : Bool) : (flagArg b).extractLsb' 0 1 = bit b := by cases b <;> rfl
@[simp] theorem sourceArg_high (src : Source) : (sourceArg src).extractLsb' 3 29 = 0 := by cases src <;> rfl
@[simp] theorem sourceArg_low (src : Source) : (sourceArg src).extractLsb' 0 3 = src.code := by cases src <;> rfl

theorem channelArg_high (ch : Channel) (v : BitVec 12) : (channelArg ch v).extractLsb' 13 19 = 0 :=
  (field_high _ _ (by omega)).trans ((field_high _ _ (by omega)).trans (field_whole _))
theorem channelArg_channel (ch : Channel) (v : BitVec 12) : (channelArg ch v).extractLsb' 12 1 = ch.code :=
  (field_high _ _ (by omega)).trans ((field_low _ _ (by omega)).trans (field_whole _))
theorem channelArg_sample (ch : Channel) (v : BitVec 12) : (channelArg ch v).extractLsb' 0 12 = v :=
  (field_low _ _ (by omega)).trans (field_whole _)

/-! ### Addresses of the windows -/

theorem pageAddr_toNat (off : BitVec 10) : (pageAddr off).toNat = 0x4000 + off.toNat := by
  have h : (pageAddr off).toNat = (0x10 : BitVec 22).toNat * 2 ^ 10 + off.toNat := toNat_append_eq _ _
  simpa using h

theorem pageAddr_setWidth (off : BitVec 10) : (pageAddr off).setWidth 10 = off := setWidth_append_low _ _

/-- The map with its addresses written out (20_memory.md R84). -/
theorem targetOf_def (i : Initiator) (a : Long) : targetOf i a =
    if 0 ≤ a.toNat ∧ a.toNat < 0x4000 then
      match i.core? with
      | some c => .bootrom c (a.toNat / 2 % Config.bootromWords c)
      | none => .external (evenAddr a)
    else if (0x4000 ≤ a.toNat ∧ a.toNat < 0x4200) ∨ (0x4200 ≤ a.toNat ∧ a.toNat < 0x4400) then
      (pageEntry (a.setWidth 10)).target
    else if 0x40000 ≤ a.toNat ∧ a.toNat < 0x60000 then .vram ((a.toNat - 0x40000) / 2)
    else if 0x60000 ≤ a.toNat ∧ a.toNat < 0xA0000 then .sdram ((a.toNat - 0x60000) / 2)
    else .external (evenAddr a) := rfl

/-- The register page with its offsets written out. -/
theorem pageEntry_def (off : BitVec 10) : pageEntry off =
    if 0x4200 ≤ 0x4000 + off.toNat ∧ 0x4000 + off.toNat < 0x4400 then
      .palette ((0x4000 + off.toNat - 0x4200) / 2)
    else
      match Reg.all.find? (fun r => r.offset.toNat / 2 == off.toNat / 2) with
      | some r => .reg r
      | none => .reserved := rfl

/-- An address of the register page reaches what the page holds there. -/
theorem targetOf_pageAddr (i : Initiator) (off : BitVec 10) : targetOf i (pageAddr off) = (pageEntry off).target := by
  have hlt := off.isLt
  simp only [targetOf_def, pageAddr_toNat, pageAddr_setWidth]
  rw [if_neg (by omega), if_pos (by omega)]

/-- A register is found at its own offset. -/
theorem pageEntry_offset (r : Reg) : pageEntry r.offset = .reg r := by
  cases r with
  | mbox n => revert n; decide
  | _ => rfl

/-- An address of the register page decodes to the register read there. -/
theorem targetInstr_reg_read (r : Reg) (i : Initiator) (ln : Lanes) (d : Word) :
    targetInstr i .read ln (pageAddr r.offset) d = r.readInstr i ln := by
  simp [targetInstr, targetOf_pageAddr, pageEntry_offset, PageEntry.target]

/-- An address of the register page decodes to the register write there. -/
theorem targetInstr_reg_write (r : Reg) (i : Initiator) (ln : Lanes) (d : Word) :
    targetInstr i .write ln (pageAddr r.offset) d = r.writeInstr i ln d := by
  simp [targetInstr, targetOf_pageAddr, pageEntry_offset, PageEntry.target]

/-- The word of a register read decodes to it. -/
theorem decode_regReadWord (r : Reg) (i : Initiator) (ln : Lanes) :
    decodeAt .target (regReadWord r i ln) = some (r.readInstr i ln) := by
  rw [regReadWord, decode_target_busWord _ _ _ _ _ rfl, targetInstr_reg_read]

/-- The word of a register write decodes to it. -/
theorem decode_regWriteWord (r : Reg) (i : Initiator) (ln : Lanes) (d : Word) :
    decodeAt .target (regWriteWord r i ln d) = some (r.writeInstr i ln d) := by
  rw [regWriteWord, decode_target_busWord _ _ _ _ _ rfl, targetInstr_reg_write]

/-- The boot ROM window decodes for its own core. -/
theorem targetOf_bootrom (c : CoreId) (off : BitVec 14) :
    targetOf c.init ((0 : BitVec 18) ++ off) = .bootrom c (off.toNat / 2 % Config.bootromWords c) := by
  have h : ((0 : BitVec 18) ++ off).toNat = off.toNat := by simpa using toNat_append_eq (0 : BitVec 18) off
  have hlt := off.isLt
  simp only [targetOf_def, h]
  rw [if_pos (by omega)]
  cases c <;> rfl

/-- The palette window. -/
theorem targetOf_palette (i : Initiator) (off : BitVec 9) :
    targetOf i ((0x21 : BitVec 23) ++ off) = .palette (off.toNat / 2) := by
  have h : ((0x21 : BitVec 23) ++ off).toNat = 0x4200 + off.toNat := by
    simpa using toNat_append_eq (0x21 : BitVec 23) off
  have hlt := off.isLt
  have hw : (((0x21 : BitVec 23) ++ off).setWidth 10).toNat = 0x200 + off.toNat := by
    have hs : (((0x21 : BitVec 23) ++ off).setWidth 10).toNat = ((0x21 : BitVec 23) ++ off).toNat % 1024 :=
      BitVec.toNat_setWidth 10 _
    rw [hs, h]
    omega
  simp only [targetOf_def, h]
  rw [if_neg (by omega), if_pos (by omega)]
  simp only [pageEntry_def, hw]
  rw [if_pos (by omega)]
  have hi : (0x4000 + (0x200 + off.toNat) - 0x4200) / 2 = off.toNat / 2 := by omega
  rw [hi, PageEntry.target]

/-- The VRAM window. -/
theorem targetOf_vram (i : Initiator) (off : BitVec 17) :
    targetOf i ((2 : BitVec 15) ++ off) = .vram (off.toNat / 2) := by
  have h : ((2 : BitVec 15) ++ off).toNat = 0x40000 + off.toNat := by simpa using toNat_append_eq (2 : BitVec 15) off
  have hlt := off.isLt
  simp only [targetOf_def, h]
  rw [if_neg (by omega), if_neg (by omega), if_pos (by omega)]
  have hi : (0x40000 + off.toNat - 0x40000) / 2 = off.toNat / 2 := by omega
  rw [hi]

/-- The lower half of the SDRAM window. -/
theorem targetOf_sdramLo (i : Initiator) (off : BitVec 17) :
    targetOf i ((3 : BitVec 15) ++ off) = .sdram (off.toNat / 2) := by
  have h : ((3 : BitVec 15) ++ off).toNat = 0x60000 + off.toNat := by simpa using toNat_append_eq (3 : BitVec 15) off
  have hlt := off.isLt
  simp only [targetOf_def, h]
  rw [if_neg (by omega), if_neg (by omega), if_neg (by omega), if_pos (by omega)]
  have hi : (0x60000 + off.toNat - 0x60000) / 2 = off.toNat / 2 := by omega
  rw [hi]

/-- The upper half of the SDRAM window. -/
theorem targetOf_sdramHi (i : Initiator) (off : BitVec 17) :
    targetOf i ((4 : BitVec 15) ++ off) = .sdram (0x10000 + off.toNat / 2) := by
  have h : ((4 : BitVec 15) ++ off).toNat = 0x80000 + off.toNat := by simpa using toNat_append_eq (4 : BitVec 15) off
  have hlt := off.isLt
  simp only [targetOf_def, h]
  rw [if_neg (by omega), if_neg (by omega), if_neg (by omega), if_pos (by omega)]
  have hi : (0x80000 + off.toNat - 0x60000) / 2 = 0x10000 + off.toNat / 2 := by omega
  rw [hi]

theorem sdramLo_below (off : BitVec 17) : ((3 : BitVec 15) ++ off).toNat < 0x80000 := by
  have h : ((3 : BitVec 15) ++ off).toNat = 0x60000 + off.toNat := by simpa using toNat_append_eq (3 : BitVec 15) off
  have hlt := off.isLt
  omega

theorem sdramHi_above (off : BitVec 17) : ¬ ((4 : BitVec 15) ++ off).toNat < 0x80000 := by
  have h : ((4 : BitVec 15) ++ off).toNat = 0x80000 + off.toNat := by simpa using toNat_append_eq (4 : BitVec 15) off
  omega

end Sys2Proof.Laws
end

