-- ==== Sys2Proof/Laws/State.lean ====
section
/-! SUPPORT. Reading the indexed data and the fields of a state after the named updates; each lemma is true by `rfl`, or
by cases of an index. -/

namespace Sys2Proof.Laws
open Sys2Proof.Machine

/-! ### Indexed data -/

@[simp] theorem PerAgent.get_set_same {α : Type} (p : PerAgent α) (i : Agent) (v : α) : (p.set i v).get i = v := by
  cases i <;> rfl
theorem PerAgent.get_set_other {α : Type} (p : PerAgent α) (i j : Agent) (v : α) (h : j ≠ i) :
    (p.set i v).get j = p.get j := by
  cases i <;> cases j <;> first | rfl | exact absurd rfl h
@[simp] theorem PerAgent.set_get_self {α : Type} (p : PerAgent α) (i : Agent) : p.set i (p.get i) = p := by
  cases i <;> rfl
@[simp] theorem PerAgent.set_set {α : Type} (p : PerAgent α) (i : Agent) (v w : α) : (p.set i v).set i w = p.set i w := by
  cases i <;> rfl

@[simp] theorem PerAgent.get_h {α : Type} (p : PerAgent α) : p.get .h = p.h := rfl
@[simp] theorem PerAgent.get_m {α : Type} (p : PerAgent α) : p.get .m = p.m := rfl
@[simp] theorem PerAgent.get_s {α : Type} (p : PerAgent α) : p.get .s = p.s := rfl
@[simp] theorem PerAgent.get_a {α : Type} (p : PerAgent α) : p.get .a = p.a := rfl
@[simp] theorem PerAgent.set_h {α : Type} (p : PerAgent α) (v : α) : p.set .h v = { p with h := v } := rfl
@[simp] theorem PerAgent.set_m {α : Type} (p : PerAgent α) (v : α) : p.set .m v = { p with m := v } := rfl
@[simp] theorem PerAgent.set_s {α : Type} (p : PerAgent α) (v : α) : p.set .s v = { p with s := v } := rfl
@[simp] theorem PerAgent.set_a {α : Type} (p : PerAgent α) (v : α) : p.set .a v = { p with a := v } := rfl

@[simp] theorem PerCore.get_set_same {α : Type} (p : PerCore α) (i : CoreId) (v : α) : (p.set i v).get i = v := by
  cases i <;> rfl
theorem PerCore.get_set_other {α : Type} (p : PerCore α) (i j : CoreId) (v : α) (h : j ≠ i) :
    (p.set i v).get j = p.get j := by
  cases i <;> cases j <;> first | rfl | exact absurd rfl h
@[simp] theorem PerCore.set_get_self {α : Type} (p : PerCore α) (i : CoreId) : p.set i (p.get i) = p := by
  cases i <;> rfl
@[simp] theorem PerCore.set_set {α : Type} (p : PerCore α) (i : CoreId) (v w : α) : (p.set i v).set i w = p.set i w := by
  cases i <;> rfl

@[simp] theorem PerCore.get_m {α : Type} (p : PerCore α) : p.get .m = p.m := rfl
@[simp] theorem PerCore.get_s {α : Type} (p : PerCore α) : p.get .s = p.s := rfl
@[simp] theorem PerCore.set_m {α : Type} (p : PerCore α) (v : α) : p.set .m v = { p with m := v } := rfl
@[simp] theorem PerCore.set_s {α : Type} (p : PerCore α) (v : α) : p.set .s v = { p with s := v } := rfl

@[simp] theorem PerChannel.get_set_same {α : Type} (p : PerChannel α) (i : Channel) (v : α) : (p.set i v).get i = v := by
  cases i <;> rfl
theorem PerChannel.get_set_other {α : Type} (p : PerChannel α) (i j : Channel) (v : α) (h : j ≠ i) :
    (p.set i v).get j = p.get j := by
  cases i <;> cases j <;> first | rfl | exact absurd rfl h
@[simp] theorem PerChannel.set_get_self {α : Type} (p : PerChannel α) (i : Channel) : p.set i (p.get i) = p := by
  cases i <;> rfl
@[simp] theorem PerChannel.set_set {α : Type} (p : PerChannel α) (i : Channel) (v w : α) : (p.set i v).set i w = p.set i w := by
  cases i <;> rfl

@[simp] theorem PerChannel.get_l {α : Type} (p : PerChannel α) : p.get .l = p.l := rfl
@[simp] theorem PerChannel.get_r {α : Type} (p : PerChannel α) : p.get .r = p.r := rfl
@[simp] theorem PerChannel.set_l {α : Type} (p : PerChannel α) (v : α) : p.set .l v = { p with l := v } := rfl
@[simp] theorem PerChannel.set_r {α : Type} (p : PerChannel α) (v : α) : p.set .r v = { p with r := v } := rfl

@[simp] theorem SourceBits.get_set_same (b : SourceBits) (k : Source) (v : Bool) : (b.set k v).get k = v := by
  cases k <;> rfl
theorem SourceBits.get_set_other (b : SourceBits) (k j : Source) (v : Bool) (h : j ≠ k) :
    (b.set k v).get j = b.get j := by
  cases k <;> cases j <;> first | rfl | exact absurd rfl h
@[simp] theorem SourceBits.get_none (k : Source) : SourceBits.none.get k = false := by cases k <;> rfl

@[simp] theorem CoreId.agent_ne_h (c : CoreId) : c.agent ≠ .h := by cases c <;> simp [CoreId.agent]
@[simp] theorem CoreId.agent_ne_a (c : CoreId) : c.agent ≠ .a := by cases c <;> simp [CoreId.agent]
@[simp] theorem CoreId.other_ne (c : CoreId) : c.other ≠ c := by cases c <;> simp [CoreId.other]
@[simp] theorem CoreId.init_core (c : CoreId) : c.init.core? = some c := by cases c <;> rfl
@[simp] theorem CoreId.init_ne_h (c : CoreId) : c.init ≠ .h := by cases c <;> simp [CoreId.init]
@[simp] theorem CoreId.init_ne_dreq (c : CoreId) : c.init ≠ .dreq := by cases c <;> simp [CoreId.init]

/-! ### `setClk` -/

@[simp] theorem setClk_token (s : State) (t : Agent) (v : BitVec Config.clkBits) : (setClk s t v).token = s.token := rfl
@[simp] theorem setClk_clk (s : State) (t : Agent) (v : BitVec Config.clkBits) : (setClk s t v).clk = s.clk.set t v := rfl
@[simp] theorem setClk_pend (s : State) (t : Agent) (v : BitVec Config.clkBits) : (setClk s t v).pend = s.pend := rfl
@[simp] theorem setClk_aliveM (s : State) (t : Agent) (v : BitVec Config.clkBits) : (setClk s t v).aliveM = s.aliveM := rfl
@[simp] theorem setClk_aliveS (s : State) (t : Agent) (v : BitVec Config.clkBits) : (setClk s t v).aliveS = s.aliveS := rfl
@[simp] theorem setClk_aliveA (s : State) (t : Agent) (v : BitVec Config.clkBits) : (setClk s t v).aliveA = s.aliveA := rfl
@[simp] theorem setClk_cores (s : State) (t : Agent) (v : BitVec Config.clkBits) : (setClk s t v).cores = s.cores := rfl
@[simp] theorem setClk_mem (s : State) (t : Agent) (v : BitVec Config.clkBits) : (setClk s t v).mem = s.mem := rfl
@[simp] theorem setClk_fbSel (s : State) (t : Agent) (v : BitVec Config.clkBits) : (setClk s t v).fbSel = s.fbSel := rfl
@[simp] theorem setClk_vdp (s : State) (t : Agent) (v : BitVec Config.clkBits) : (setClk s t v).vdp = s.vdp := rfl
@[simp] theorem setClk_pwm (s : State) (t : Agent) (v : BitVec Config.clkBits) : (setClk s t v).pwm = s.pwm := rfl
@[simp] theorem setClk_audioOut (s : State) (t : Agent) (v : BitVec Config.clkBits) : (setClk s t v).audioOut = s.audioOut := rfl
@[simp] theorem setClk_dreq (s : State) (t : Agent) (v : BitVec Config.clkBits) : (setClk s t v).dreq = s.dreq := rfl
@[simp] theorem setClk_io (s : State) (t : Agent) (v : BitVec Config.clkBits) : (setClk s t v).io = s.io := rfl
@[simp] theorem setClk_mailbox (s : State) (t : Agent) (v : BitVec Config.clkBits) : (setClk s t v).mailbox = s.mailbox := rfl
@[simp] theorem setClk_extLog (s : State) (t : Agent) (v : BitVec Config.clkBits) : (setClk s t v).extLog = s.extLog := rfl
@[simp] theorem setClk_powerOns (s : State) (t : Agent) (v : BitVec Config.clkBits) : (setClk s t v).powerOns = s.powerOns := rfl
@[simp] theorem setClk_ops (s : State) (t : Agent) (v : BitVec Config.clkBits) : (setClk s t v).ops = s.ops := rfl
@[simp] theorem setClk_result (s : State) (t : Agent) (v : BitVec Config.clkBits) : (setClk s t v).result = s.result := rfl
@[simp] theorem setClk_pixels (s : State) (t : Agent) (v : BitVec Config.clkBits) : (setClk s t v).pixels = s.pixels := rfl
@[simp] theorem setClk_inside (s : State) (t : Agent) (v : BitVec Config.clkBits) : (setClk s t v).inside = s.inside := rfl

/-! ### `setPend` -/

@[simp] theorem setPend_token (s : State) (t : Agent) (l : List Agent) : (setPend s t l).token = s.token := rfl
@[simp] theorem setPend_clk (s : State) (t : Agent) (l : List Agent) : (setPend s t l).clk = s.clk := rfl
@[simp] theorem setPend_pend (s : State) (t : Agent) (l : List Agent) : (setPend s t l).pend = s.pend.set t l := rfl
@[simp] theorem setPend_aliveM (s : State) (t : Agent) (l : List Agent) : (setPend s t l).aliveM = s.aliveM := rfl
@[simp] theorem setPend_aliveS (s : State) (t : Agent) (l : List Agent) : (setPend s t l).aliveS = s.aliveS := rfl
@[simp] theorem setPend_aliveA (s : State) (t : Agent) (l : List Agent) : (setPend s t l).aliveA = s.aliveA := rfl
@[simp] theorem setPend_cores (s : State) (t : Agent) (l : List Agent) : (setPend s t l).cores = s.cores := rfl
@[simp] theorem setPend_mem (s : State) (t : Agent) (l : List Agent) : (setPend s t l).mem = s.mem := rfl
@[simp] theorem setPend_fbSel (s : State) (t : Agent) (l : List Agent) : (setPend s t l).fbSel = s.fbSel := rfl
@[simp] theorem setPend_vdp (s : State) (t : Agent) (l : List Agent) : (setPend s t l).vdp = s.vdp := rfl
@[simp] theorem setPend_pwm (s : State) (t : Agent) (l : List Agent) : (setPend s t l).pwm = s.pwm := rfl
@[simp] theorem setPend_audioOut (s : State) (t : Agent) (l : List Agent) : (setPend s t l).audioOut = s.audioOut := rfl
@[simp] theorem setPend_dreq (s : State) (t : Agent) (l : List Agent) : (setPend s t l).dreq = s.dreq := rfl
@[simp] theorem setPend_io (s : State) (t : Agent) (l : List Agent) : (setPend s t l).io = s.io := rfl
@[simp] theorem setPend_mailbox (s : State) (t : Agent) (l : List Agent) : (setPend s t l).mailbox = s.mailbox := rfl
@[simp] theorem setPend_extLog (s : State) (t : Agent) (l : List Agent) : (setPend s t l).extLog = s.extLog := rfl
@[simp] theorem setPend_powerOns (s : State) (t : Agent) (l : List Agent) : (setPend s t l).powerOns = s.powerOns := rfl
@[simp] theorem setPend_ops (s : State) (t : Agent) (l : List Agent) : (setPend s t l).ops = s.ops := rfl
@[simp] theorem setPend_result (s : State) (t : Agent) (l : List Agent) : (setPend s t l).result = s.result := rfl
@[simp] theorem setPend_pixels (s : State) (t : Agent) (l : List Agent) : (setPend s t l).pixels = s.pixels := rfl
@[simp] theorem setPend_inside (s : State) (t : Agent) (l : List Agent) : (setPend s t l).inside = s.inside := rfl

/-! ### `setCore` -/

@[simp] theorem setCore_token (s : State) (c : CoreId) (k : CoreState) : (setCore s c k).token = s.token := rfl
@[simp] theorem setCore_clk (s : State) (c : CoreId) (k : CoreState) : (setCore s c k).clk = s.clk := rfl
@[simp] theorem setCore_pend (s : State) (c : CoreId) (k : CoreState) : (setCore s c k).pend = s.pend := rfl
@[simp] theorem setCore_aliveM (s : State) (c : CoreId) (k : CoreState) : (setCore s c k).aliveM = s.aliveM := rfl
@[simp] theorem setCore_aliveS (s : State) (c : CoreId) (k : CoreState) : (setCore s c k).aliveS = s.aliveS := rfl
@[simp] theorem setCore_aliveA (s : State) (c : CoreId) (k : CoreState) : (setCore s c k).aliveA = s.aliveA := rfl
@[simp] theorem setCore_cores (s : State) (c : CoreId) (k : CoreState) : (setCore s c k).cores = s.cores.set c k := rfl
@[simp] theorem setCore_mem (s : State) (c : CoreId) (k : CoreState) : (setCore s c k).mem = s.mem := rfl
@[simp] theorem setCore_fbSel (s : State) (c : CoreId) (k : CoreState) : (setCore s c k).fbSel = s.fbSel := rfl
@[simp] theorem setCore_vdp (s : State) (c : CoreId) (k : CoreState) : (setCore s c k).vdp = s.vdp := rfl
@[simp] theorem setCore_pwm (s : State) (c : CoreId) (k : CoreState) : (setCore s c k).pwm = s.pwm := rfl
@[simp] theorem setCore_audioOut (s : State) (c : CoreId) (k : CoreState) : (setCore s c k).audioOut = s.audioOut := rfl
@[simp] theorem setCore_dreq (s : State) (c : CoreId) (k : CoreState) : (setCore s c k).dreq = s.dreq := rfl
@[simp] theorem setCore_io (s : State) (c : CoreId) (k : CoreState) : (setCore s c k).io = s.io := rfl
@[simp] theorem setCore_mailbox (s : State) (c : CoreId) (k : CoreState) : (setCore s c k).mailbox = s.mailbox := rfl
@[simp] theorem setCore_extLog (s : State) (c : CoreId) (k : CoreState) : (setCore s c k).extLog = s.extLog := rfl
@[simp] theorem setCore_powerOns (s : State) (c : CoreId) (k : CoreState) : (setCore s c k).powerOns = s.powerOns := rfl
@[simp] theorem setCore_ops (s : State) (c : CoreId) (k : CoreState) : (setCore s c k).ops = s.ops := rfl
@[simp] theorem setCore_result (s : State) (c : CoreId) (k : CoreState) : (setCore s c k).result = s.result := rfl
@[simp] theorem setCore_pixels (s : State) (c : CoreId) (k : CoreState) : (setCore s c k).pixels = s.pixels := rfl
@[simp] theorem setCore_inside (s : State) (c : CoreId) (k : CoreState) : (setCore s c k).inside = s.inside := rfl

/-! ### `setRegs` -/

@[simp] theorem setRegs_token (s : State) (c : CoreId) (r : CoreRegs) : (setRegs s c r).token = s.token := rfl
@[simp] theorem setRegs_clk (s : State) (c : CoreId) (r : CoreRegs) : (setRegs s c r).clk = s.clk := rfl
@[simp] theorem setRegs_pend (s : State) (c : CoreId) (r : CoreRegs) : (setRegs s c r).pend = s.pend := rfl
@[simp] theorem setRegs_aliveM (s : State) (c : CoreId) (r : CoreRegs) : (setRegs s c r).aliveM = s.aliveM := rfl
@[simp] theorem setRegs_aliveS (s : State) (c : CoreId) (r : CoreRegs) : (setRegs s c r).aliveS = s.aliveS := rfl
@[simp] theorem setRegs_aliveA (s : State) (c : CoreId) (r : CoreRegs) : (setRegs s c r).aliveA = s.aliveA := rfl
@[simp] theorem setRegs_cores (s : State) (c : CoreId) (r : CoreRegs) :
    (setRegs s c r).cores = s.cores.set c { s.cores.get c with regs := r } := rfl
@[simp] theorem setRegs_mem (s : State) (c : CoreId) (r : CoreRegs) : (setRegs s c r).mem = s.mem := rfl
@[simp] theorem setRegs_fbSel (s : State) (c : CoreId) (r : CoreRegs) : (setRegs s c r).fbSel = s.fbSel := rfl
@[simp] theorem setRegs_vdp (s : State) (c : CoreId) (r : CoreRegs) : (setRegs s c r).vdp = s.vdp := rfl
@[simp] theorem setRegs_pwm (s : State) (c : CoreId) (r : CoreRegs) : (setRegs s c r).pwm = s.pwm := rfl
@[simp] theorem setRegs_audioOut (s : State) (c : CoreId) (r : CoreRegs) : (setRegs s c r).audioOut = s.audioOut := rfl
@[simp] theorem setRegs_dreq (s : State) (c : CoreId) (r : CoreRegs) : (setRegs s c r).dreq = s.dreq := rfl
@[simp] theorem setRegs_io (s : State) (c : CoreId) (r : CoreRegs) : (setRegs s c r).io = s.io := rfl
@[simp] theorem setRegs_mailbox (s : State) (c : CoreId) (r : CoreRegs) : (setRegs s c r).mailbox = s.mailbox := rfl
@[simp] theorem setRegs_extLog (s : State) (c : CoreId) (r : CoreRegs) : (setRegs s c r).extLog = s.extLog := rfl
@[simp] theorem setRegs_powerOns (s : State) (c : CoreId) (r : CoreRegs) : (setRegs s c r).powerOns = s.powerOns := rfl
@[simp] theorem setRegs_ops (s : State) (c : CoreId) (r : CoreRegs) : (setRegs s c r).ops = s.ops := rfl
@[simp] theorem setRegs_result (s : State) (c : CoreId) (r : CoreRegs) : (setRegs s c r).result = s.result := rfl
@[simp] theorem setRegs_pixels (s : State) (c : CoreId) (r : CoreRegs) : (setRegs s c r).pixels = s.pixels := rfl
@[simp] theorem setRegs_inside (s : State) (c : CoreId) (r : CoreRegs) : (setRegs s c r).inside = s.inside := rfl

/-! ### `setIrq` -/

@[simp] theorem setIrq_token (s : State) (c : CoreId) (q : IrqCtl) : (setIrq s c q).token = s.token := rfl
@[simp] theorem setIrq_clk (s : State) (c : CoreId) (q : IrqCtl) : (setIrq s c q).clk = s.clk := rfl
@[simp] theorem setIrq_pend (s : State) (c : CoreId) (q : IrqCtl) : (setIrq s c q).pend = s.pend := rfl
@[simp] theorem setIrq_aliveM (s : State) (c : CoreId) (q : IrqCtl) : (setIrq s c q).aliveM = s.aliveM := rfl
@[simp] theorem setIrq_aliveS (s : State) (c : CoreId) (q : IrqCtl) : (setIrq s c q).aliveS = s.aliveS := rfl
@[simp] theorem setIrq_aliveA (s : State) (c : CoreId) (q : IrqCtl) : (setIrq s c q).aliveA = s.aliveA := rfl
@[simp] theorem setIrq_cores (s : State) (c : CoreId) (q : IrqCtl) :
    (setIrq s c q).cores = s.cores.set c { s.cores.get c with irq := q } := rfl
@[simp] theorem setIrq_mem (s : State) (c : CoreId) (q : IrqCtl) : (setIrq s c q).mem = s.mem := rfl
@[simp] theorem setIrq_fbSel (s : State) (c : CoreId) (q : IrqCtl) : (setIrq s c q).fbSel = s.fbSel := rfl
@[simp] theorem setIrq_vdp (s : State) (c : CoreId) (q : IrqCtl) : (setIrq s c q).vdp = s.vdp := rfl
@[simp] theorem setIrq_pwm (s : State) (c : CoreId) (q : IrqCtl) : (setIrq s c q).pwm = s.pwm := rfl
@[simp] theorem setIrq_audioOut (s : State) (c : CoreId) (q : IrqCtl) : (setIrq s c q).audioOut = s.audioOut := rfl
@[simp] theorem setIrq_dreq (s : State) (c : CoreId) (q : IrqCtl) : (setIrq s c q).dreq = s.dreq := rfl
@[simp] theorem setIrq_io (s : State) (c : CoreId) (q : IrqCtl) : (setIrq s c q).io = s.io := rfl
@[simp] theorem setIrq_mailbox (s : State) (c : CoreId) (q : IrqCtl) : (setIrq s c q).mailbox = s.mailbox := rfl
@[simp] theorem setIrq_extLog (s : State) (c : CoreId) (q : IrqCtl) : (setIrq s c q).extLog = s.extLog := rfl
@[simp] theorem setIrq_powerOns (s : State) (c : CoreId) (q : IrqCtl) : (setIrq s c q).powerOns = s.powerOns := rfl
@[simp] theorem setIrq_ops (s : State) (c : CoreId) (q : IrqCtl) : (setIrq s c q).ops = s.ops := rfl
@[simp] theorem setIrq_result (s : State) (c : CoreId) (q : IrqCtl) : (setIrq s c q).result = s.result := rfl
@[simp] theorem setIrq_pixels (s : State) (c : CoreId) (q : IrqCtl) : (setIrq s c q).pixels = s.pixels := rfl
@[simp] theorem setIrq_inside (s : State) (c : CoreId) (q : IrqCtl) : (setIrq s c q).inside = s.inside := rfl

/-! ### `setResult` -/

@[simp] theorem setResult_token (s : State) (r : OpResult) : (setResult s r).token = s.token := rfl
@[simp] theorem setResult_clk (s : State) (r : OpResult) : (setResult s r).clk = s.clk := rfl
@[simp] theorem setResult_pend (s : State) (r : OpResult) : (setResult s r).pend = s.pend := rfl
@[simp] theorem setResult_aliveM (s : State) (r : OpResult) : (setResult s r).aliveM = s.aliveM := rfl
@[simp] theorem setResult_aliveS (s : State) (r : OpResult) : (setResult s r).aliveS = s.aliveS := rfl
@[simp] theorem setResult_aliveA (s : State) (r : OpResult) : (setResult s r).aliveA = s.aliveA := rfl
@[simp] theorem setResult_cores (s : State) (r : OpResult) : (setResult s r).cores = s.cores := rfl
@[simp] theorem setResult_mem (s : State) (r : OpResult) : (setResult s r).mem = s.mem := rfl
@[simp] theorem setResult_fbSel (s : State) (r : OpResult) : (setResult s r).fbSel = s.fbSel := rfl
@[simp] theorem setResult_vdp (s : State) (r : OpResult) : (setResult s r).vdp = s.vdp := rfl
@[simp] theorem setResult_pwm (s : State) (r : OpResult) : (setResult s r).pwm = s.pwm := rfl
@[simp] theorem setResult_audioOut (s : State) (r : OpResult) : (setResult s r).audioOut = s.audioOut := rfl
@[simp] theorem setResult_dreq (s : State) (r : OpResult) : (setResult s r).dreq = s.dreq := rfl
@[simp] theorem setResult_io (s : State) (r : OpResult) : (setResult s r).io = s.io := rfl
@[simp] theorem setResult_mailbox (s : State) (r : OpResult) : (setResult s r).mailbox = s.mailbox := rfl
@[simp] theorem setResult_extLog (s : State) (r : OpResult) : (setResult s r).extLog = s.extLog := rfl
@[simp] theorem setResult_powerOns (s : State) (r : OpResult) : (setResult s r).powerOns = s.powerOns := rfl
@[simp] theorem setResult_ops (s : State) (r : OpResult) : (setResult s r).ops = s.ops := rfl
@[simp] theorem setResult_result (s : State) (r : OpResult) : (setResult s r).result = r := rfl
@[simp] theorem setResult_pixels (s : State) (r : OpResult) : (setResult s r).pixels = s.pixels := rfl
@[simp] theorem setResult_inside (s : State) (r : OpResult) : (setResult s r).inside = s.inside := rfl

/-! ### `writeByte` -/

@[simp] theorem writeByte_token (s : State) (a : Nat) (b : Byte) : (writeByte s a b).token = s.token := rfl
@[simp] theorem writeByte_clk (s : State) (a : Nat) (b : Byte) : (writeByte s a b).clk = s.clk := rfl
@[simp] theorem writeByte_pend (s : State) (a : Nat) (b : Byte) : (writeByte s a b).pend = s.pend := rfl
@[simp] theorem writeByte_aliveM (s : State) (a : Nat) (b : Byte) : (writeByte s a b).aliveM = s.aliveM := rfl
@[simp] theorem writeByte_aliveS (s : State) (a : Nat) (b : Byte) : (writeByte s a b).aliveS = s.aliveS := rfl
@[simp] theorem writeByte_aliveA (s : State) (a : Nat) (b : Byte) : (writeByte s a b).aliveA = s.aliveA := rfl
@[simp] theorem writeByte_cores (s : State) (a : Nat) (b : Byte) : (writeByte s a b).cores = s.cores := rfl
@[simp] theorem writeByte_mem (s : State) (a : Nat) (b : Byte) :
    (writeByte s a b).mem = Memory.write (unlisted s.powerOns) s.mem a b := rfl
@[simp] theorem writeByte_fbSel (s : State) (a : Nat) (b : Byte) : (writeByte s a b).fbSel = s.fbSel := rfl
@[simp] theorem writeByte_vdp (s : State) (a : Nat) (b : Byte) : (writeByte s a b).vdp = s.vdp := rfl
@[simp] theorem writeByte_pwm (s : State) (a : Nat) (b : Byte) : (writeByte s a b).pwm = s.pwm := rfl
@[simp] theorem writeByte_audioOut (s : State) (a : Nat) (b : Byte) : (writeByte s a b).audioOut = s.audioOut := rfl
@[simp] theorem writeByte_dreq (s : State) (a : Nat) (b : Byte) : (writeByte s a b).dreq = s.dreq := rfl
@[simp] theorem writeByte_io (s : State) (a : Nat) (b : Byte) : (writeByte s a b).io = s.io := rfl
@[simp] theorem writeByte_mailbox (s : State) (a : Nat) (b : Byte) : (writeByte s a b).mailbox = s.mailbox := rfl
@[simp] theorem writeByte_extLog (s : State) (a : Nat) (b : Byte) : (writeByte s a b).extLog = s.extLog := rfl
@[simp] theorem writeByte_powerOns (s : State) (a : Nat) (b : Byte) : (writeByte s a b).powerOns = s.powerOns := rfl
@[simp] theorem writeByte_ops (s : State) (a : Nat) (b : Byte) : (writeByte s a b).ops = s.ops := rfl
@[simp] theorem writeByte_result (s : State) (a : Nat) (b : Byte) : (writeByte s a b).result = s.result := rfl
@[simp] theorem writeByte_pixels (s : State) (a : Nat) (b : Byte) : (writeByte s a b).pixels = s.pixels := rfl
@[simp] theorem writeByte_inside (s : State) (a : Nat) (b : Byte) : (writeByte s a b).inside = s.inside := rfl

/-! ### `latchCommit` -/

@[simp] theorem latchCommit_token (s : State) : (latchCommit s).token = s.token := rfl
@[simp] theorem latchCommit_clk (s : State) : (latchCommit s).clk = s.clk := rfl
@[simp] theorem latchCommit_pend (s : State) : (latchCommit s).pend = s.pend := rfl
@[simp] theorem latchCommit_aliveM (s : State) : (latchCommit s).aliveM = s.aliveM := rfl
@[simp] theorem latchCommit_aliveS (s : State) : (latchCommit s).aliveS = s.aliveS := rfl
@[simp] theorem latchCommit_aliveA (s : State) : (latchCommit s).aliveA = s.aliveA := rfl
@[simp] theorem latchCommit_cores (s : State) : (latchCommit s).cores = s.cores := rfl
@[simp] theorem latchCommit_mem (s : State) : (latchCommit s).mem = s.mem := rfl
@[simp] theorem latchCommit_fbSel (s : State) : (latchCommit s).fbSel = s.fbSel := rfl
@[simp] theorem latchCommit_vdp (s : State) :
    (latchCommit s).vdp = { s.vdp with latch := s.vdp.live } := rfl
@[simp] theorem latchCommit_pwm (s : State) : (latchCommit s).pwm = s.pwm := rfl
@[simp] theorem latchCommit_audioOut (s : State) : (latchCommit s).audioOut = s.audioOut := rfl
@[simp] theorem latchCommit_dreq (s : State) : (latchCommit s).dreq = s.dreq := rfl
@[simp] theorem latchCommit_io (s : State) : (latchCommit s).io = s.io := rfl
@[simp] theorem latchCommit_mailbox (s : State) : (latchCommit s).mailbox = s.mailbox := rfl
@[simp] theorem latchCommit_extLog (s : State) : (latchCommit s).extLog = s.extLog := rfl
@[simp] theorem latchCommit_powerOns (s : State) : (latchCommit s).powerOns = s.powerOns := rfl
@[simp] theorem latchCommit_ops (s : State) : (latchCommit s).ops = s.ops := rfl
@[simp] theorem latchCommit_result (s : State) : (latchCommit s).result = s.result := rfl
@[simp] theorem latchCommit_pixels (s : State) : (latchCommit s).pixels = s.pixels := rfl
@[simp] theorem latchCommit_inside (s : State) : (latchCommit s).inside = s.inside := rfl

/-! ### `fifoWrite` -/

@[simp] theorem fifoWrite_token (ch : Channel) (v : BitVec 12) (s : State) :
    (fifoWrite ch v s).token = s.token := rfl
@[simp] theorem fifoWrite_clk (ch : Channel) (v : BitVec 12) (s : State) :
    (fifoWrite ch v s).clk = s.clk := rfl
@[simp] theorem fifoWrite_pend (ch : Channel) (v : BitVec 12) (s : State) :
    (fifoWrite ch v s).pend = s.pend := rfl
@[simp] theorem fifoWrite_aliveM (ch : Channel) (v : BitVec 12) (s : State) :
    (fifoWrite ch v s).aliveM = s.aliveM := rfl
@[simp] theorem fifoWrite_aliveS (ch : Channel) (v : BitVec 12) (s : State) :
    (fifoWrite ch v s).aliveS = s.aliveS := rfl
@[simp] theorem fifoWrite_aliveA (ch : Channel) (v : BitVec 12) (s : State) :
    (fifoWrite ch v s).aliveA = s.aliveA := rfl
@[simp] theorem fifoWrite_cores (ch : Channel) (v : BitVec 12) (s : State) :
    (fifoWrite ch v s).cores = s.cores := rfl
@[simp] theorem fifoWrite_mem (ch : Channel) (v : BitVec 12) (s : State) :
    (fifoWrite ch v s).mem = s.mem := rfl
@[simp] theorem fifoWrite_fbSel (ch : Channel) (v : BitVec 12) (s : State) :
    (fifoWrite ch v s).fbSel = s.fbSel := rfl
@[simp] theorem fifoWrite_vdp (ch : Channel) (v : BitVec 12) (s : State) :
    (fifoWrite ch v s).vdp = s.vdp := rfl
@[simp] theorem fifoWrite_pwm (ch : Channel) (v : BitVec 12) (s : State) :
    (fifoWrite ch v s).pwm = { s.pwm with fifo := s.pwm.fifo.set ch (fifoPush (s.pwm.fifo.get ch) v) } := rfl
@[simp] theorem fifoWrite_audioOut (ch : Channel) (v : BitVec 12) (s : State) :
    (fifoWrite ch v s).audioOut = s.audioOut := rfl
@[simp] theorem fifoWrite_dreq (ch : Channel) (v : BitVec 12) (s : State) :
    (fifoWrite ch v s).dreq = s.dreq := rfl
@[simp] theorem fifoWrite_io (ch : Channel) (v : BitVec 12) (s : State) :
    (fifoWrite ch v s).io = s.io := rfl
@[simp] theorem fifoWrite_mailbox (ch : Channel) (v : BitVec 12) (s : State) :
    (fifoWrite ch v s).mailbox = s.mailbox := rfl
@[simp] theorem fifoWrite_extLog (ch : Channel) (v : BitVec 12) (s : State) :
    (fifoWrite ch v s).extLog = s.extLog := rfl
@[simp] theorem fifoWrite_powerOns (ch : Channel) (v : BitVec 12) (s : State) :
    (fifoWrite ch v s).powerOns = s.powerOns := rfl
@[simp] theorem fifoWrite_ops (ch : Channel) (v : BitVec 12) (s : State) :
    (fifoWrite ch v s).ops = s.ops := rfl
@[simp] theorem fifoWrite_result (ch : Channel) (v : BitVec 12) (s : State) :
    (fifoWrite ch v s).result = s.result := rfl
@[simp] theorem fifoWrite_pixels (ch : Channel) (v : BitVec 12) (s : State) :
    (fifoWrite ch v s).pixels = s.pixels := rfl
@[simp] theorem fifoWrite_inside (ch : Channel) (v : BitVec 12) (s : State) :
    (fifoWrite ch v s).inside = s.inside := rfl

/-! ### `setChannel` -/

@[simp] theorem setChannel_token (s : State) (ch : Channel) (f : List (BitVec 12)) (v : BitVec 12) :
    (setChannel s ch f v).token = s.token := rfl
@[simp] theorem setChannel_clk (s : State) (ch : Channel) (f : List (BitVec 12)) (v : BitVec 12) :
    (setChannel s ch f v).clk = s.clk := rfl
@[simp] theorem setChannel_pend (s : State) (ch : Channel) (f : List (BitVec 12)) (v : BitVec 12) :
    (setChannel s ch f v).pend = s.pend := rfl
@[simp] theorem setChannel_aliveM (s : State) (ch : Channel) (f : List (BitVec 12)) (v : BitVec 12) :
    (setChannel s ch f v).aliveM = s.aliveM := rfl
@[simp] theorem setChannel_aliveS (s : State) (ch : Channel) (f : List (BitVec 12)) (v : BitVec 12) :
    (setChannel s ch f v).aliveS = s.aliveS := rfl
@[simp] theorem setChannel_aliveA (s : State) (ch : Channel) (f : List (BitVec 12)) (v : BitVec 12) :
    (setChannel s ch f v).aliveA = s.aliveA := rfl
@[simp] theorem setChannel_cores (s : State) (ch : Channel) (f : List (BitVec 12)) (v : BitVec 12) :
    (setChannel s ch f v).cores = s.cores := rfl
@[simp] theorem setChannel_mem (s : State) (ch : Channel) (f : List (BitVec 12)) (v : BitVec 12) :
    (setChannel s ch f v).mem = s.mem := rfl
@[simp] theorem setChannel_fbSel (s : State) (ch : Channel) (f : List (BitVec 12)) (v : BitVec 12) :
    (setChannel s ch f v).fbSel = s.fbSel := rfl
@[simp] theorem setChannel_vdp (s : State) (ch : Channel) (f : List (BitVec 12)) (v : BitVec 12) :
    (setChannel s ch f v).vdp = s.vdp := rfl
@[simp] theorem setChannel_pwm (s : State) (ch : Channel) (f : List (BitVec 12)) (v : BitVec 12) :
    (setChannel s ch f v).pwm = { s.pwm with fifo := s.pwm.fifo.set ch f, last := s.pwm.last.set ch v } := rfl
@[simp] theorem setChannel_audioOut (s : State) (ch : Channel) (f : List (BitVec 12)) (v : BitVec 12) :
    (setChannel s ch f v).audioOut = s.audioOut := rfl
@[simp] theorem setChannel_dreq (s : State) (ch : Channel) (f : List (BitVec 12)) (v : BitVec 12) :
    (setChannel s ch f v).dreq = s.dreq := rfl
@[simp] theorem setChannel_io (s : State) (ch : Channel) (f : List (BitVec 12)) (v : BitVec 12) :
    (setChannel s ch f v).io = s.io := rfl
@[simp] theorem setChannel_mailbox (s : State) (ch : Channel) (f : List (BitVec 12)) (v : BitVec 12) :
    (setChannel s ch f v).mailbox = s.mailbox := rfl
@[simp] theorem setChannel_extLog (s : State) (ch : Channel) (f : List (BitVec 12)) (v : BitVec 12) :
    (setChannel s ch f v).extLog = s.extLog := rfl
@[simp] theorem setChannel_powerOns (s : State) (ch : Channel) (f : List (BitVec 12)) (v : BitVec 12) :
    (setChannel s ch f v).powerOns = s.powerOns := rfl
@[simp] theorem setChannel_ops (s : State) (ch : Channel) (f : List (BitVec 12)) (v : BitVec 12) :
    (setChannel s ch f v).ops = s.ops := rfl
@[simp] theorem setChannel_result (s : State) (ch : Channel) (f : List (BitVec 12)) (v : BitVec 12) :
    (setChannel s ch f v).result = s.result := rfl
@[simp] theorem setChannel_pixels (s : State) (ch : Channel) (f : List (BitVec 12)) (v : BitVec 12) :
    (setChannel s ch f v).pixels = s.pixels := rfl
@[simp] theorem setChannel_inside (s : State) (ch : Channel) (f : List (BitVec 12)) (v : BitVec 12) :
    (setChannel s ch f v).inside = s.inside := rfl

/-! ### `logExternal` -/

@[simp] theorem logExternal_token (rw : Dir) (l : Lanes) (a : Long) (d : Word) (s : State) :
    (logExternal rw l a d s).token = s.token := rfl
@[simp] theorem logExternal_clk (rw : Dir) (l : Lanes) (a : Long) (d : Word) (s : State) :
    (logExternal rw l a d s).clk = s.clk := rfl
@[simp] theorem logExternal_pend (rw : Dir) (l : Lanes) (a : Long) (d : Word) (s : State) :
    (logExternal rw l a d s).pend = s.pend := rfl
@[simp] theorem logExternal_aliveM (rw : Dir) (l : Lanes) (a : Long) (d : Word) (s : State) :
    (logExternal rw l a d s).aliveM = s.aliveM := rfl
@[simp] theorem logExternal_aliveS (rw : Dir) (l : Lanes) (a : Long) (d : Word) (s : State) :
    (logExternal rw l a d s).aliveS = s.aliveS := rfl
@[simp] theorem logExternal_aliveA (rw : Dir) (l : Lanes) (a : Long) (d : Word) (s : State) :
    (logExternal rw l a d s).aliveA = s.aliveA := rfl
@[simp] theorem logExternal_cores (rw : Dir) (l : Lanes) (a : Long) (d : Word) (s : State) :
    (logExternal rw l a d s).cores = s.cores := rfl
@[simp] theorem logExternal_mem (rw : Dir) (l : Lanes) (a : Long) (d : Word) (s : State) :
    (logExternal rw l a d s).mem = s.mem := rfl
@[simp] theorem logExternal_fbSel (rw : Dir) (l : Lanes) (a : Long) (d : Word) (s : State) :
    (logExternal rw l a d s).fbSel = s.fbSel := rfl
@[simp] theorem logExternal_vdp (rw : Dir) (l : Lanes) (a : Long) (d : Word) (s : State) :
    (logExternal rw l a d s).vdp = s.vdp := rfl
@[simp] theorem logExternal_pwm (rw : Dir) (l : Lanes) (a : Long) (d : Word) (s : State) :
    (logExternal rw l a d s).pwm = s.pwm := rfl
@[simp] theorem logExternal_audioOut (rw : Dir) (l : Lanes) (a : Long) (d : Word) (s : State) :
    (logExternal rw l a d s).audioOut = s.audioOut := rfl
@[simp] theorem logExternal_dreq (rw : Dir) (l : Lanes) (a : Long) (d : Word) (s : State) :
    (logExternal rw l a d s).dreq = s.dreq := rfl
@[simp] theorem logExternal_io (rw : Dir) (l : Lanes) (a : Long) (d : Word) (s : State) :
    (logExternal rw l a d s).io = s.io := rfl
@[simp] theorem logExternal_mailbox (rw : Dir) (l : Lanes) (a : Long) (d : Word) (s : State) :
    (logExternal rw l a d s).mailbox = s.mailbox := rfl
@[simp] theorem logExternal_extLog (rw : Dir) (l : Lanes) (a : Long) (d : Word) (s : State) :
    (logExternal rw l a d s).extLog = s.extLog ++ [⟨rw, l, a, d⟩] := rfl
@[simp] theorem logExternal_powerOns (rw : Dir) (l : Lanes) (a : Long) (d : Word) (s : State) :
    (logExternal rw l a d s).powerOns = s.powerOns := rfl
@[simp] theorem logExternal_ops (rw : Dir) (l : Lanes) (a : Long) (d : Word) (s : State) :
    (logExternal rw l a d s).ops = s.ops := rfl
@[simp] theorem logExternal_result (rw : Dir) (l : Lanes) (a : Long) (d : Word) (s : State) :
    (logExternal rw l a d s).result = s.result := rfl
@[simp] theorem logExternal_pixels (rw : Dir) (l : Lanes) (a : Long) (d : Word) (s : State) :
    (logExternal rw l a d s).pixels = s.pixels := rfl
@[simp] theorem logExternal_inside (rw : Dir) (l : Lanes) (a : Long) (d : Word) (s : State) :
    (logExternal rw l a d s).inside = s.inside := rfl

end Sys2Proof.Laws
end

