-- ==== Sys2Proof/Laws/Memory.lean ====
section
/-! SUPPORT. The laws of memory: reading after writing, the canonical form, and what the named operations over bytes and
words do. -/

namespace Sys2Proof.Laws
open Sys2Proof.Machine

/-! ### Lists -/

theorem lookup_erase_same (m : Memory) (a : Nat) : Memory.lookup (Memory.erase m a) a = none := by
  induction m with
  | nil => rfl
  | cons c rest ih =>
    obtain ⟨k, v⟩ := c
    by_cases h : k = a
    · subst h
      simpa [Memory.erase] using ih
    · have hk : (k != a) = true := by simpa using h
      simp only [Memory.erase, List.filter_cons, hk] at ih ⊢
      simpa [Memory.lookup, h] using ih

theorem lookup_erase_other (m : Memory) (a x : Nat) (h : x ≠ a) :
    Memory.lookup (Memory.erase m a) x = Memory.lookup m x := by
  induction m with
  | nil => rfl
  | cons c rest ih =>
    obtain ⟨k, v⟩ := c
    by_cases hk : k = a
    · subst hk
      simpa [Memory.erase, Memory.lookup, Ne.symm h] using ih
    · have hk' : (k != a) = true := by simpa using hk
      simp only [Memory.erase, List.filter_cons, hk'] at ih ⊢
      by_cases hx : k = x <;> simp [Memory.lookup, hx, ih]

theorem lookup_insert_same (m : Memory) (a : Nat) (b : Byte) : Memory.lookup (Memory.insert m a b) a = some b := by
  induction m with
  | nil => simp [Memory.insert, Memory.lookup]
  | cons c rest ih =>
    obtain ⟨k, v⟩ := c
    simp only [Memory.insert]
    split
    · simp [Memory.lookup]
    · split
      · simp [Memory.lookup]
      · next h => simp [Memory.lookup, Ne.symm h, ih]

theorem lookup_insert_other (m : Memory) (a x : Nat) (b : Byte) (h : x ≠ a) :
    Memory.lookup (Memory.insert m a b) x = Memory.lookup m x := by
  induction m with
  | nil => simp [Memory.insert, Memory.lookup, Ne.symm h]
  | cons c rest ih =>
    obtain ⟨k, v⟩ := c
    simp only [Memory.insert]
    split
    · simp [Memory.lookup, Ne.symm h]
    · split
      · next h2 => subst h2; simp [Memory.lookup, Ne.symm h]
      · simp only [Memory.lookup]; split
        · rfl
        · exact ih

/-- A byte reads as it was written. -/
theorem read_write_same (d : Nat → Byte) (m : Memory) (a : Nat) (b : Byte) :
    Memory.read d (Memory.write d m a b) a = b := by
  unfold Memory.read Memory.write
  split
  · next h => rw [lookup_erase_same, h]; rfl
  · rw [lookup_insert_same]; rfl

/-- A write leaves every other byte alone. -/
theorem read_write_other (d : Nat → Byte) (m : Memory) (a x : Nat) (b : Byte) (h : x ≠ a) :
    Memory.read d (Memory.write d m a b) x = Memory.read d m x := by
  unfold Memory.read Memory.write
  split
  · rw [lookup_erase_other _ _ _ h]
  · rw [lookup_insert_other _ _ _ _ h]

/-! ### The canonical form -/

theorem mem_insert (m : Memory) (a : Nat) (b : Byte) (c : Host.Cell) (h : c ∈ Memory.insert m a b) :
    c = (a, b) ∨ c ∈ m := by
  induction m with
  | nil => simpa [Memory.insert] using h
  | cons e rest ih =>
    obtain ⟨k, v⟩ := e
    simp only [Memory.insert] at h
    split at h
    · simpa using h
    · split at h
      · rcases List.mem_cons.mp h with h | h
        · exact .inl h
        · exact .inr (List.mem_cons_of_mem _ h)
      · rcases List.mem_cons.mp h with h | h
        · exact .inr (by simp [h])
        · exact (ih h).imp id (List.mem_cons_of_mem _)

theorem sorted_insert (m : Memory) (a : Nat) (b : Byte) (h : m.Pairwise (fun x y => x.1 < y.1)) :
    (Memory.insert m a b).Pairwise (fun x y => x.1 < y.1) := by
  induction m with
  | nil => simp [Memory.insert]
  | cons e rest ih =>
    obtain ⟨k, v⟩ := e
    rw [List.pairwise_cons] at h
    simp only [Memory.insert]
    split
    · next hlt =>
      refine List.pairwise_cons.mpr ⟨fun c hc => ?_, List.pairwise_cons.mpr h⟩
      rcases List.mem_cons.mp hc with rfl | hc
      · exact hlt
      · exact Nat.lt_trans hlt (h.1 c hc)
    · split
      · next heq => exact List.pairwise_cons.mpr ⟨fun c hc => by simpa [heq] using h.1 c hc, h.2⟩
      · next hge hne =>
        refine List.pairwise_cons.mpr ⟨fun c hc => ?_, ih h.2⟩
        rcases mem_insert _ _ _ _ hc with rfl | hc
        · show k < a
          omega
        · exact h.1 c hc

/-- The entries of a memory after a write: the byte written, or an entry that was there. -/
theorem mem_write (d : Nat → Byte) (m : Memory) (a : Nat) (b : Byte) (c : Host.Cell)
    (h : c ∈ Memory.write d m a b) : (c = (a, b) ∧ b ≠ d a) ∨ c ∈ m := by
  unfold Memory.write at h
  split at h
  · exact .inr (List.mem_filter.mp h).1
  · next hb => exact (mem_insert _ _ _ _ h).imp (fun e => ⟨e, hb⟩) id

/-- A write keeps the canonical form. -/
theorem wf_write (d : Nat → Byte) (m : Memory) (a : Nat) (b : Byte) (h : Memory.wf d m) :
    Memory.wf d (Memory.write d m a b) := by
  refine ⟨?_, fun c hc => ?_⟩
  · unfold Memory.write
    split
    · exact h.1.filter _
    · exact sorted_insert _ _ _ h.1
  · rcases mem_write _ _ _ _ _ hc with ⟨rfl, hb⟩ | hc
    · exact hb
    · exact h.2 c hc

/-- Dropping entries keeps the canonical form. -/
theorem wf_filter (d : Nat → Byte) (m : Memory) (p : Host.Cell → Bool) (h : Memory.wf d m) :
    Memory.wf d (m.filter p) :=
  ⟨h.1.filter _, fun c hc => h.2 c (List.mem_filter.mp hc).1⟩

theorem wf_nil (d : Nat → Byte) : Memory.wf d [] := ⟨.nil, by simp⟩

/-- The memory of the reset state has the canonical form. -/
theorem wf_reset : Memory.wf (unlisted State.reset.powerOns) State.reset.mem := wf_nil _

/-! ### Bytes and words of the state -/

@[simp] theorem readByte_writeByte_same (s : State) (a : Nat) (b : Byte) : readByte (writeByte s a b) a = b :=
  read_write_same _ _ _ _

theorem readByte_writeByte_other (s : State) (a x : Nat) (b : Byte) (h : x ≠ a) :
    readByte (writeByte s a b) x = readByte s x :=
  read_write_other _ _ _ _ _ h

/-- A byte depends on the listed memory and the count of cold powers only. -/
theorem readByte_congr {s t : State} (hm : t.mem = s.mem) (hp : t.powerOns = s.powerOns) (a : Nat) :
    readByte t a = readByte s a := by
  unfold readByte
  rw [hm, hp]

theorem readWord_congr {s t : State} (hm : t.mem = s.mem) (hp : t.powerOns = s.powerOns) (m : MemId) (w : Nat) :
    readWord t m w = readWord s m w := by
  unfold readWord
  rw [readByte_congr hm hp, readByte_congr hm hp]

/-- A word written changes the listed memory only. -/
theorem writeWord_eq (s : State) (m : MemId) (w : Nat) (l : Lanes) (d : Word) :
    writeWord s m w l d = { s with mem := (writeWord s m w l d).mem } := by
  cases l <;> rfl

/-- The even byte after a word is written. -/
theorem readByte_writeWord_even (s : State) (m : MemId) (w : Nat) (l : Lanes) (d : Word) :
    readByte (writeWord s m w l d) (m.loc (2 * w)) = if l.u then hiByte d else readByte s (m.loc (2 * w)) := by
  have h : m.loc (2 * w) ≠ m.loc (2 * w + 1) := by unfold MemId.loc; omega
  cases l <;> simp [writeWord, Lanes.u, Lanes.l, readByte_writeByte_other _ _ _ _ h]

/-- The odd byte after a word is written. -/
theorem readByte_writeWord_odd (s : State) (m : MemId) (w : Nat) (l : Lanes) (d : Word) :
    readByte (writeWord s m w l d) (m.loc (2 * w + 1)) =
      if l.l then loByte d else readByte s (m.loc (2 * w + 1)) := by
  have h : m.loc (2 * w + 1) ≠ m.loc (2 * w) := by unfold MemId.loc; omega
  cases l <;> simp [writeWord, Lanes.u, Lanes.l, readByte_writeByte_other _ _ _ _ h]

/-- A word written leaves every other byte alone. -/
theorem readByte_writeWord_other (s : State) (m : MemId) (w : Nat) (l : Lanes) (d : Word) (x : Nat)
    (h0 : x ≠ m.loc (2 * w)) (h1 : x ≠ m.loc (2 * w + 1)) :
    readByte (writeWord s m w l d) x = readByte s x := by
  cases l <;> simp [writeWord, Lanes.u, Lanes.l, readByte_writeByte_other _ _ _ _ h0,
    readByte_writeByte_other _ _ _ _ h1]

theorem append_high {m n : Nat} (x : BitVec m) (y : BitVec n) : (x ++ y).extractLsb' n m = x := by
  ext k hk
  rw [BitVec.getElem_extractLsb', BitVec.getLsbD_append, if_neg (by omega), Nat.add_sub_cancel_left,
    BitVec.getLsbD_eq_getElem hk]

theorem append_low {m n : Nat} (x : BitVec m) (y : BitVec n) : (x ++ y).extractLsb' 0 n = y := by
  ext k hk
  rw [BitVec.getElem_extractLsb', BitVec.getLsbD_append, if_pos (by omega), Nat.zero_add,
    BitVec.getLsbD_eq_getElem hk]

theorem append_halves {m n : Nat} (v : BitVec (m + n)) : v.extractLsb' n m ++ v.extractLsb' 0 n = v := by
  ext k hk
  rw [BitVec.getElem_append]
  split
  · rw [BitVec.getElem_extractLsb', Nat.zero_add, BitVec.getLsbD_eq_getElem hk]
  · next h =>
    rw [BitVec.getElem_extractLsb', Nat.add_sub_of_le (by omega), BitVec.getLsbD_eq_getElem hk]

@[simp] theorem hiByte_joinBytes (h l : Byte) : hiByte (joinBytes h l) = h := append_high h l
@[simp] theorem loByte_joinBytes (h l : Byte) : loByte (joinBytes h l) = l := append_low h l
@[simp] theorem joinBytes_hi_lo (v : Word) : joinBytes (hiByte v) (loByte v) = v := append_halves (m := 8) (n := 8) v
@[simp] theorem hiWord_joinWords (h l : Word) : hiWord (joinWords h l) = h := append_high h l
@[simp] theorem loWord_joinWords (h l : Word) : loWord (joinWords h l) = l := append_low h l
@[simp] theorem joinWords_hi_lo (v : Long) : joinWords (hiWord v) (loWord v) = v := append_halves (m := 16) (n := 16) v

/-- The word written, lane-merged, is the word read (20_memory.md R87). -/
theorem readWord_writeWord_same (s : State) (m : MemId) (w : Nat) (l : Lanes) (d : Word) :
    readWord (writeWord s m w l d) m w = l.merge (readWord s m w) d := by
  simp only [readWord, readByte_writeWord_even, readByte_writeWord_odd, Lanes.merge, hiByte_joinBytes,
    loByte_joinBytes]

/-- Another word of the same memory is left alone. -/
theorem readWord_writeWord_other (s : State) (m : MemId) (w x : Nat) (l : Lanes) (d : Word) (h : x ≠ w) :
    readWord (writeWord s m w l d) m x = readWord s m x := by
  unfold readWord
  rw [readByte_writeWord_other, readByte_writeWord_other] <;> unfold MemId.loc <;> omega

/-- A word written keeps the canonical form. -/
theorem wf_writeWord (s : State) (m : MemId) (w : Nat) (l : Lanes) (d : Word)
    (h : Memory.wf (unlisted s.powerOns) s.mem) :
    Memory.wf (unlisted (writeWord s m w l d).powerOns) (writeWord s m w l d).mem := by
  cases l
  · exact wf_write _ _ _ _ (wf_write _ _ _ _ h)
  · exact wf_write _ _ _ _ h
  · exact wf_write _ _ _ _ h

/-- The memory `POWER` leaves has the canonical form, under the count of cold powers it leaves. -/
theorem wf_powerMem (r : Bool) (s : State) (h : Memory.wf (unlisted s.powerOns) s.mem) :
    Memory.wf (unlisted (powerFields r s).powerOns) (powerMem r s) := by
  cases r
  · exact wf_nil _
  · exact wf_filter _ _ _ h

end Sys2Proof.Laws
end

