-- ==== Sys2Proof/Laws/Ops.lean ====
section
/-! SUPPORT. One lemma per shared operation that says what it can change, and what its pieces compute. -/

namespace Sys2Proof.Laws
open Sys2Proof.Machine

/-! ### How a meaning ends -/

theorem whenEnabled_next {ok : Bool} {s t : State} : whenEnabled ok s = .next t ↔ ok = true ∧ s = t := by
  cases ok <;> simp [whenEnabled]

theorem whenEnabled_fault {ok : Bool} {s : State} {f : Fault} : whenEnabled ok s ≠ .fault f := by
  cases ok <;> simp [whenEnabled]

theorem initiatorReady_iff (i : Initiator) (s : State) :
    initiatorReady i s = true ↔ (i = .h → s.token = .h ∧ s.pend.h = []) := by
  cases i <;> simp [initiatorReady, hostTurn]

theorem hostTurn_iff (s : State) : hostTurn s = true ↔ s.token = .h ∧ s.pend.h = [] := by simp [hostTurn]

theorem coreEnabled_iff (c : CoreId) (s : State) :
    coreEnabled c s = true ↔ s.token = c.agent ∧ s.alive c.agent = true ∧ s.pend.get c.agent = [] := by
  simp [coreEnabled, and_assoc]

theorem audioEnabled_iff (s : State) :
    audioEnabled s = true ↔ s.token = .a ∧ s.aliveA = true ∧ s.pend.a = [] := by
  simp [audioEnabled, and_assoc]

theorem transactRead_next {i : Initiator} {l : Lanes} {g : Target} {s t : State} :
    transactRead i l g s = .next t ↔ initiatorReady i s = true ∧
      setResult (readAt i l g s).2.2 (.bus (readAt i l g s).1 (readAt i l g s).2.1) = t := by
  simp [transactRead, whenEnabled_next]

theorem transactWrite_next {i : Initiator} {l : Lanes} {g : Target} {d : Word} {s t : State} :
    transactWrite i l g d s = .next t ↔ initiatorReady i s = true ∧
      setResult (writeAt i l g d s).2 (.bus 0 (writeAt i l g d s).1) = t := by
  simp [transactWrite, whenEnabled_next]

theorem hostEvent_next {s s' t : State} :
    hostEvent s s' = .next t ↔ hostTurn s = true ∧ setResult s' .none = t := by
  simp [hostEvent, whenEnabled_next]

/-! ### What a bus transaction can never touch -/

/-- What no transaction, no register write and no interrupt of the block changes: the scheduler, the audio output, the
host's side. Beside it only registers, memory, the interrupt bits, the units and `extLog` can differ. -/
structure BusKeeps (s t : State) : Prop where
  token : t.token = s.token
  clk : t.clk = s.clk
  pend : t.pend = s.pend
  aliveM : t.aliveM = s.aliveM
  aliveS : t.aliveS = s.aliveS
  aliveA : t.aliveA = s.aliveA
  minSh2 : ∀ c, (t.cores.get c).minCyclesBetweenSh2Syncs = (s.cores.get c).minCyclesBetweenSh2Syncs
  minM68k : ∀ c, (t.cores.get c).minCyclesBetweenM68kSyncs = (s.cores.get c).minCyclesBetweenM68kSyncs
  sh2 : ∀ c, (t.cores.get c).cyclesUntilSh2Sync = (s.cores.get c).cyclesUntilSh2Sync
  m68k : ∀ c, (t.cores.get c).cyclesUntilM68kSync = (s.cores.get c).cyclesUntilM68kSync
  audioOut : t.audioOut = s.audioOut
  latch : t.vdp.latch = s.vdp.latch
  powerOns : t.powerOns = s.powerOns
  ops : t.ops = s.ops
  result : t.result = s.result
  pixels : t.pixels = s.pixels
  inside : t.inside = s.inside

theorem BusKeeps.refl (s : State) : BusKeeps s s := by constructor <;> intros <;> rfl

theorem BusKeeps.trans {s t u : State} (a : BusKeeps s t) (b : BusKeeps t u) : BusKeeps s u := by
  constructor <;> intros <;> first
    | exact b.token.trans a.token | exact b.clk.trans a.clk | exact b.pend.trans a.pend
    | exact b.aliveM.trans a.aliveM | exact b.aliveS.trans a.aliveS | exact b.aliveA.trans a.aliveA
    | exact (b.minSh2 _).trans (a.minSh2 _) | exact (b.minM68k _).trans (a.minM68k _)
    | exact (b.sh2 _).trans (a.sh2 _) | exact (b.m68k _).trans (a.m68k _)
    | exact b.audioOut.trans a.audioOut | exact b.latch.trans a.latch | exact b.powerOns.trans a.powerOns
    | exact b.ops.trans a.ops | exact b.result.trans a.result | exact b.pixels.trans a.pixels
    | exact b.inside.trans a.inside

/-- Whether an agent exists is kept. -/
theorem BusKeeps.alive {s t : State} (k : BusKeeps s t) (x : Agent) : t.alive x = s.alive x := by
  cases x
  · rfl
  · exact k.aliveM
  · exact k.aliveS
  · exact k.aliveA

/-- A state that differs in fields a transaction may change. -/
theorem BusKeeps.of_eq {s t : State} (h : t = { s with
    mem := t.mem, fbSel := t.fbSel, vdp := t.vdp, pwm := t.pwm, dreq := t.dreq, io := t.io, mailbox := t.mailbox,
    extLog := t.extLog }) (hl : t.vdp.latch = s.vdp.latch) : BusKeeps s t := by
  rw [h] at hl ⊢
  constructor <;> intros <;> first | rfl | exact hl

theorem setRegs_keeps (s : State) (c : CoreId) (r : CoreRegs) : BusKeeps s (setRegs s c r) := by
  constructor <;> intros <;> first | rfl | (next c' => cases c <;> cases c' <;> rfl)

theorem setIrq_keeps (s : State) (c : CoreId) (q : IrqCtl) : BusKeeps s (setIrq s c q) := by
  constructor <;> intros <;> first | rfl | (next c' => cases c <;> cases c' <;> rfl)

theorem logExternal_keeps (rw : Dir) (l : Lanes) (a : Long) (d : Word) (s : State) :
    BusKeeps s (logExternal rw l a d s) := BusKeeps.of_eq rfl rfl

theorem writeWord_keeps (s : State) (m : MemId) (w : Nat) (l : Lanes) (d : Word) :
    BusKeeps s (writeWord s m w l d) := by
  rw [writeWord_eq]
  exact BusKeeps.of_eq rfl rfl

/-! ### The interrupt controller -/

theorem irqRaise_keeps (c : CoreId) (k : Source) (s : State) : BusKeeps s (irqRaise c k s) := setIrq_keeps _ _ _

theorem irqRaiseBoth_keeps (k : Source) (s : State) : BusKeeps s (irqRaiseBoth k s) :=
  (irqRaise_keeps _ _ _).trans (irqRaise_keeps _ _ _)

/-- `IRQ_RAISE` changes the cores only. -/
theorem irqRaise_eq (c : CoreId) (k : Source) (s : State) :
    irqRaise c k s = { s with cores := (irqRaise c k s).cores } := rfl

/-- `IRQ_RAISE` on both cores changes the cores only. -/
theorem irqRaiseBoth_eq (k : Source) (s : State) :
    irqRaiseBoth k s = { s with cores := (irqRaiseBoth k s).cores } := rfl

/-- The `active` bits after `IRQ_RAISE`. -/
theorem irqRaise_active (c : CoreId) (k : Source) (s : State) (c' : CoreId) (k' : Source) :
    (((irqRaise c k s).cores.get c').irq.active.get k' = true) ↔
      (c' = c ∧ k' = k) ∨ (s.cores.get c').irq.active.get k' = true := by
  cases c <;> cases c' <;> cases k <;> cases k' <;> simp [irqRaise, SourceBits.get, SourceBits.set]

/-- `IRQ_RAISE` leaves every enable. -/
theorem irqRaise_enable (c : CoreId) (k : Source) (s : State) (c' : CoreId) :
    ((irqRaise c k s).cores.get c').irq.enable = (s.cores.get c').irq.enable := by
  cases c <;> cases c' <;> rfl

/-- `IRQ_RAISE` leaves the engine's registers. -/
theorem irqRaise_regs (c : CoreId) (k : Source) (s : State) (c' : CoreId) :
    ((irqRaise c k s).cores.get c').regs = (s.cores.get c').regs := by
  cases c <;> cases c' <;> rfl

theorem updateBanked_keeps (i : Initiator) (f : IrqCtl → IrqCtl) (s : State) : BusKeeps s (updateBanked i f s) := by
  unfold updateBanked
  split
  · exact setIrq_keeps _ _ _
  · exact BusKeeps.refl _

/-! ### The framebuffer engine -/

/-- `FB_COMMIT` changes `fbSel` only. -/
theorem fbCommit_eq (s : State) : fbCommit s = { s with fbSel := (fbCommit s).fbSel } := by
  unfold fbCommit
  split <;> rfl

/-- After `FB_COMMIT` the bank is the requested one, or the engine is engaged and the bank is the old one. -/
theorem fbCommit_fbSel (s : State) :
    (fbCommit s).fbSel = if framebufferEngaged s then s.fbSel else s.vdp.fbReq := by
  unfold fbCommit
  by_cases h : framebufferEngaged s = true
  · simp [h]
  · simp only [Bool.not_eq_true] at h
    by_cases h2 : s.fbSel = s.vdp.fbReq <;> simp [h, h2]

theorem fbCommit_keeps (s : State) : BusKeeps s (fbCommit s) := by
  rw [fbCommit_eq]
  exact BusKeeps.of_eq rfl rfl

/-- `SELECT_FB` changes the request and `fbSel` only. -/
theorem selectFb_eq (v : Bool) (s : State) :
    selectFb v s = { s with vdp := { s.vdp with fbReq := v }, fbSel := (selectFb v s).fbSel } := by
  unfold selectFb
  rw [fbCommit_eq]

theorem selectFb_keeps (v : Bool) (s : State) : BusKeeps s (selectFb v s) := by
  rw [selectFb_eq]
  exact BusKeeps.of_eq rfl rfl

/-- The counters of an autofill step. -/
theorem autofillAdvance_eq (s : State) : autofillAdvance s = { s with
    vdp := { s.vdp with
      autofillAddress := s.vdp.autofillAddress + 1
      autofillRemaining := s.vdp.autofillRemaining - 1
      autofillActive := s.vdp.autofillActive && s.vdp.autofillRemaining - 1 != 0 }
    fbSel := (autofillAdvance s).fbSel } := by
  unfold autofillAdvance
  dsimp only
  split
  · rw [fbCommit_eq]
  · rfl

theorem autofillStep_keeps (s : State) : BusKeeps s (autofillStep s) := by
  have h (u : State) : BusKeeps u (autofillAdvance u) := by
    rw [autofillAdvance_eq]
    exact BusKeeps.of_eq rfl rfl
  exact BusKeeps.trans (writeWord_keeps _ _ _ _ _) (h _)

/-! ### The audio pipeline -/

theorem fifoPush_length (f : List (BitVec 12)) (v : BitVec 12) (h : f.length ≤ 3) : (fifoPush f v).length ≤ 3 := by
  unfold fifoPush Config.pwmFifoDepth
  split <;> simp <;> omega

/-- `FIFO_READ` changes the FIFOs and last values only. -/
theorem fifoRead_changes (ch : Channel) (s : State) :
    ∃ f v, (fifoRead ch s).2.2 = { s with pwm := { s.pwm with fifo := f, last := v } } := by
  unfold fifoRead
  split <;> exact ⟨_, _, rfl⟩

/-- `FIFO_DRAIN` changes the FIFOs and last values only. -/
theorem fifoDrain_changes (ch : Channel) (s : State) :
    ∃ f v, (fifoDrain ch s).2.2 = { s with pwm := { s.pwm with fifo := f, last := v } } := by
  unfold fifoDrain
  split <;> exact ⟨_, _, rfl⟩

/-- `Route` changes the FIFOs and last values only. -/
theorem route_changes (ch : Channel) (m : BitVec 2) (s : State) :
    ∃ f v, (route ch m s).2.2 = { s with pwm := { s.pwm with fifo := f, last := v } } := by
  unfold route
  split
  · exact fifoRead_changes ch s
  · split
    · exact fifoDrain_changes ch s
    · exact ⟨_, _, rfl⟩

/-- `SAMPLE_TICK` changes the FIFOs, the last values, the filters, the audio output (by one pair) and the `pwm` active
bits only. -/
theorem sampleTick_changes (s : State) :
    ∃ f v d pair, ∃ b : Bool, sampleTick s =
      (if b then irqRaiseBoth .pwm else id)
        { s with pwm := { s.pwm with fifo := f, last := v, dc := d }, audioOut := s.audioOut ++ [pair] } := by
  unfold sampleTick
  obtain ⟨f1, v1, h1⟩ := route_changes .l s.pwm.lmode s
  rcases hl : route .l s.pwm.lmode s with ⟨rawL, eL, s1⟩
  rw [hl] at h1
  simp only at h1
  subst h1
  dsimp only
  by_cases hm : s.pwm.mono = true
  · rw [if_pos hm]
    split
    · exact ⟨f1, v1, _, _, true, rfl⟩
    · exact ⟨f1, v1, _, _, false, rfl⟩
  · rw [if_neg hm]
    generalize hu : ({ s with pwm := { s.pwm with fifo := f1, last := v1 } } : State) = u
    obtain ⟨f2, v2, h2⟩ := route_changes .r s.pwm.rmode u
    rcases hr : route .r s.pwm.rmode u with ⟨rawR, eR, s2⟩
    rw [hr] at h2
    simp only at h2
    subst hu
    subst h2
    split
    · exact ⟨f2, v2, _, _, true, rfl⟩
    · exact ⟨f2, v2, _, _, false, rfl⟩

/-! ### Register writes -/

/-- A word read from the boot ROM, a register or a memory changes nothing; one from the external space is logged. -/
theorem targetRead_eq (i : Initiator) (l : Lanes) (g : Target) (s : State) :
    (targetRead i l g s).2 = { s with extLog := (targetRead i l g s).2.extLog } := by
  cases g <;> rfl

theorem targetRead_keeps (i : Initiator) (l : Lanes) (g : Target) (s : State) :
    BusKeeps s (targetRead i l g s).2 := by
  rw [targetRead_eq]
  exact BusKeeps.of_eq rfl rfl

theorem busRead_eq (i : Initiator) (l : Lanes) (a : Long) (s : State) :
    (busRead i l a s).2.2 = { s with extLog := (busRead i l a s).2.2.extLog } := targetRead_eq i l (targetOf i a) s

theorem busRead_keeps (i : Initiator) (l : Lanes) (a : Long) (s : State) : BusKeeps s (busRead i l a s).2.2 :=
  targetRead_keeps i l (targetOf i a) s

theorem busRead_changes (i : Initiator) (l : Lanes) (a : Long) (s : State) :
    ∃ e, (busRead i l a s).2.2 = { s with extLog := e } := ⟨_, busRead_eq i l a s⟩

/-- `MemRead` can change `extLog` only. -/
theorem memRead_changes (i : Initiator) (a : Long) (n : Size) (s : State) :
    ∃ e, (memRead i a n s).2.2 = { s with extLog := e } := by
  cases n
  · unfold memRead
    dsimp only
    split <;> exact busRead_changes _ _ _ _
  · exact busRead_changes _ _ _ _
  · obtain ⟨e1, h1⟩ := busRead_changes i .word (evenAddr a) s
    obtain ⟨e2, h2⟩ := busRead_changes i .word (evenAddr a + 2) (busRead i .word (evenAddr a) s).2.2
    rw [h1] at h2
    refine ⟨e2, ?_⟩
    show (busRead i .word (evenAddr a + 2) (busRead i .word (evenAddr a) s).2.2).2.2 = _
    rw [h1, h2]

theorem memRead_keeps (i : Initiator) (a : Long) (n : Size) (s : State) : BusKeeps s (memRead i a n s).2.2 := by
  obtain ⟨e, h⟩ := memRead_changes i a n s
  rw [h]
  exact BusKeeps.of_eq rfl rfl

theorem loadEntry_keeps (c : CoreId) (s : State) : BusKeeps s (loadEntry c s) :=
  BusKeeps.trans (memRead_keeps c.init (Config.entryOffset c) .long s) (setRegs_keeps _ c _)

theorem irqDispatch_keeps (c : CoreId) (k : Source) (s : State) : BusKeeps s (irqDispatch c k s).2 :=
  BusKeeps.trans (memRead_keeps c.init (BitVec.ofNat 32 (Config.vecBase + 4 * Config.vec k)) .long s)
    (setRegs_keeps _ c _)

theorem adapterWrite_keeps (l : Lanes) (d : Word) (s : State) : BusKeeps s (adapterWrite l d s) := by
  unfold adapterWrite
  split
  · dsimp only
    split
    · refine BusKeeps.trans ?_ (BusKeeps.trans (loadEntry_keeps .m _) (loadEntry_keeps .s _))
      exact BusKeeps.of_eq rfl rfl
    · exact BusKeeps.of_eq rfl rfl
  · exact BusKeeps.refl _

theorem cmdreqWrite_keeps (l : Lanes) (d : Word) (s : State) : BusKeeps s (cmdreqWrite l d s) := by
  unfold cmdreqWrite
  split
  · dsimp only
    split <;> split <;> first
      | exact (irqRaise_keeps _ _ _).trans (irqRaise_keeps _ _ _) | exact irqRaise_keeps _ _ _ | exact BusKeeps.refl _
  · exact BusKeeps.refl _

/-- No register write touches the scheduler, the latch, the audio output or the host's side. -/
theorem regWrite_keeps (i : Initiator) (r : Reg) (l : Lanes) (d : Word) (s : State) :
    BusKeeps s (regWrite i r l d s) := by
  cases r <;> unfold regWrite <;> dsimp only
  case irqen => split <;> first | exact updateBanked_keeps _ _ _ | exact BusKeeps.refl _
  case irqack => split <;> first | exact updateBanked_keeps _ _ _ | exact BusKeeps.refl _
  case irqstat => exact BusKeeps.refl _
  case hcounter => exact BusKeeps.refl _
  case adapter => exact adapterWrite_keeps _ _ _
  case cmdreq => exact cmdreqWrite_keeps _ _ _
  case hperiod => exact BusKeeps.of_eq rfl rfl
  case mbox => exact BusKeeps.of_eq rfl rfl
  case pwmctl => exact BusKeeps.of_eq rfl rfl
  case pwmcyc => exact BusKeeps.of_eq rfl rfl
  case pwml => unfold sampleWrite; split <;> first | exact BusKeeps.refl _ | exact BusKeeps.of_eq rfl rfl
  case pwmr => unfold sampleWrite; split <;> first | exact BusKeeps.refl _ | exact BusKeeps.of_eq rfl rfl
  case dreqctl => unfold dreqctlWrite; split <;> first | exact BusKeeps.refl _ | exact BusKeeps.of_eq rfl rfl
  case dreqsrch => unfold dreqFieldWrite; split <;> first | exact BusKeeps.refl _ | exact BusKeeps.of_eq rfl rfl
  case dreqsrcl => unfold dreqFieldWrite; split <;> first | exact BusKeeps.refl _ | exact BusKeeps.of_eq rfl rfl
  case dreqdsth => unfold dreqFieldWrite; split <;> first | exact BusKeeps.refl _ | exact BusKeeps.of_eq rfl rfl
  case dreqdstl => unfold dreqFieldWrite; split <;> first | exact BusKeeps.refl _ | exact BusKeeps.of_eq rfl rfl
  case dreqlen => unfold dreqFieldWrite; split <;> first | exact BusKeeps.refl _ | exact BusKeeps.of_eq rfl rfl
  case vdpmode => unfold vdpmodeWrite; split <;> first | exact BusKeeps.refl _ | exact BusKeeps.of_eq rfl rfl
  case vdpshift => unfold vdpshiftWrite; split <;> first | exact BusKeeps.refl _ | exact BusKeeps.of_eq rfl rfl
  case aflen => unfold aflenWrite; split <;> first | exact BusKeeps.refl _ | exact BusKeeps.of_eq rfl rfl
  case afaddr => unfold afaddrWrite; split <;> first | exact BusKeeps.refl _ | exact BusKeeps.of_eq rfl rfl
  case afdata =>
    unfold afdataWrite
    split
    · exact BusKeeps.refl _
    · refine BusKeeps.of_eq rfl ?_
      dsimp only
      split <;> rfl
  case fbctl => unfold fbctlWrite; split <;> first | exact selectFb_keeps _ _ | exact BusKeeps.refl _

theorem targetWrite_keeps (i : Initiator) (l : Lanes) (g : Target) (d : Word) (s : State) :
    BusKeeps s (targetWrite i l g d s) := by
  cases g <;> first
    | exact BusKeeps.refl _ | exact regWrite_keeps _ _ _ _ _ | exact writeWord_keeps _ _ _ _ _
    | exact logExternal_keeps _ _ _ _ _

theorem busWrite_keeps (i : Initiator) (l : Lanes) (a : Long) (d : Word) (s : State) :
    BusKeeps s (busWrite i l a d s).2 := targetWrite_keeps _ _ _ _ _

theorem memWrite_keeps (i : Initiator) (a : Long) (n : Size) (v : Long) (s : State) :
    BusKeeps s (memWrite i a n v s).2 := by
  cases n
  · exact busWrite_keeps _ _ _ _ _
  · exact busWrite_keeps _ _ _ _ _
  · exact (busWrite_keeps _ _ _ _ _).trans (busWrite_keeps _ _ _ _ _)

/-! ### The DREQ controller -/

theorem dreqThrough_keeps (w : Word) (s : State) : BusKeeps s (dreqThrough w s).2 := by
  unfold dreqThrough
  split
  · exact BusKeeps.refl _
  · exact BusKeeps.of_eq rfl rfl

/-- With the FIFO empty the word pushed is the word popped (10_state.md R73 (g)). -/
theorem dreqThrough_empty (w : Word) (s : State) (h : s.dreq.fifo = []) : dreqThrough w s = (w, s) := by
  unfold dreqThrough
  rw [h]

/-- The FIFO keeps no more than its depth. -/
theorem dreqThrough_fifo_le (w : Word) (s : State) (h : s.dreq.fifo.length ≤ Config.dreqFifoDepth) :
    (dreqThrough w s).2.dreq.fifo.length ≤ Config.dreqFifoDepth := by
  unfold dreqThrough
  split
  · exact h
  · exact List.length_take_le _ _

theorem dreqStore_keeps (v : Word) (s : State) : BusKeeps s (dreqStore v s) := by
  unfold dreqStore
  split
  · exact writeWord_keeps _ _ _ _ _
  · exact busWrite_keeps _ _ _ _ _

/-- The counters of a transfer step. -/
theorem dreqAdvance_eq (s : State) : dreqAdvance s = { s with
    dreq := { s.dreq with
      source := s.dreq.source + 1
      target := s.dreq.target + 1
      length := s.dreq.length - 1
      active := s.dreq.active && s.dreq.length - 1 != 0
      dma := s.dreq.dma && s.dreq.length - 1 != 0 }
    fbSel := (dreqAdvance s).fbSel } := by
  unfold dreqAdvance
  dsimp only
  have hb (b : Bool) (h : s.dreq.length - 1 = 0) : (b && s.dreq.length - 1 != 0) = false := by rw [h]; simp
  have hn (b : Bool) (h : ¬ s.dreq.length - 1 = 0) : (b && s.dreq.length - 1 != 0) = b := by
    rw [show (s.dreq.length - 1 != 0) = true from bne_iff_ne.mpr h, Bool.and_true]
  split
  · next h => rw [fbCommit_eq, hb _ h, hb _ h]
  · next h => rw [hn _ h, hn _ h]

theorem dreqStep_keeps (s : State) : BusKeeps s (dreqStep s) := by
  have h (u : State) : BusKeeps u (dreqAdvance u) := by
    rw [dreqAdvance_eq]
    exact BusKeeps.of_eq rfl rfl
  exact BusKeeps.trans (BusKeeps.trans (BusKeeps.trans (busRead_keeps .dreq .word (dreqAddr s.dreq.source) s)
    (dreqThrough_keeps _ _)) (dreqStore_keeps _ _)) (h _)

/-! ### A core's instruction -/

/-- The bus calls of an instruction touch neither the scheduler, nor the latch, nor the audio output, nor the host's
side. -/
theorem runProgram_keeps (c : CoreId) (p : CoreProgram) (w : Nat) (s : State) :
    BusKeeps s (runProgram c p w s).2.2 := by
  induction p generalizing w s with
  | done r e => exact BusKeeps.refl _
  | read a n k ih => exact (memRead_keeps _ _ _ _).trans (ih _ _ _ _)
  | write a n v k ih => exact (memWrite_keeps _ _ _ _ _).trans (ih _ _ _)

/-- An instruction takes at least one cycle. -/
theorem runProgram_cycles (c : CoreId) (p : CoreProgram) (w : Nat) (s : State) : 1 ≤ (runProgram c p w s).2.1 := by
  induction p generalizing w s with
  | done r e => show 1 ≤ e + 1 + w; omega
  | read a n k ih => exact ih _ _ _ _
  | write a n v k ih => exact ih _ _ _

theorem takeInterrupt_keeps (c : CoreId) (s : State) : BusKeeps s (takeInterrupt c s).2 := by
  unfold takeInterrupt
  split
  · split
    · exact irqDispatch_keeps _ _ _
    · exact BusKeeps.refl _
  · exact BusKeeps.refl _

/-- An instruction that starts with `adapterReset` 0 and makes no 0-to-1 edge of it ends with it 0. -/
theorem runProgram_adapterReset (c : CoreId) (p : CoreProgram) (w : Nat) (s : State)
    (h : s.io.adapterReset = false) (hr : reloadsDuring c p s = false) :
    (runProgram c p w s).2.2.io.adapterReset = false := by
  induction p generalizing w s with
  | done r e => exact h
  | read a n k ih =>
    obtain ⟨e, he⟩ := memRead_changes c.init a n s
    have h1 : (memRead c.init a n s).2.2.io.adapterReset = false := by
      rw [he]
      exact h
    exact ih _ _ _ _ h1 hr
  | write a n v k ih =>
    obtain ⟨h1, h2⟩ := Bool.or_eq_false_iff.mp hr
    rw [h] at h1
    exact ih _ _ _ h1 h2

@[simp] theorem endRegs_reloaded (c : CoreId) (r : CoreRegs) (s : State) : endRegs c true r s = s := rfl
@[simp] theorem endRegs_given (c : CoreId) (r : CoreRegs) (s : State) : endRegs c false r s = setRegs s c r := rfl

theorem endRegs_keeps (c : CoreId) (b : Bool) (r : CoreRegs) (s : State) : BusKeeps s (endRegs c b r s) := by
  unfold endRegs
  split
  · exact BusKeeps.refl _
  · exact setRegs_keeps _ _ _

theorem normalStep_keeps (c : CoreId) (s : State) : BusKeeps s (normalStep c s).2 := by
  unfold normalStep
  exact (takeInterrupt_keeps _ _).trans ((runProgram_keeps _ _ _ _).trans (endRegs_keeps _ _ _ _))

theorem normalStep_cycles (c : CoreId) (s : State) : 1 ≤ (normalStep c s).1 := by
  unfold normalStep
  exact runProgram_cycles _ _ _ _

theorem coreBody_keeps (c : CoreId) (s : State) : BusKeeps s (coreBody c s).2 := by
  unfold coreBody
  split
  · exact BusKeeps.refl _
  · split
    · exact BusKeeps.refl _
    · exact normalStep_keeps _ _

/-- A step takes at least one cycle (40_scheduler.md R164). -/
theorem coreBody_cycles (c : CoreId) (s : State) : 1 ≤ (coreBody c s).1 := by
  unfold coreBody
  split
  · exact Nat.le_refl 1
  · split
    · exact Nat.le_refl 1
    · exact normalStep_cycles _ _

/-! ### The clocks -/

/-- `Advance` and `SyncCheck` change the core's clock, its two deficits and its queue only. -/
theorem syncCheck_advanceCore_eq (c : CoreId) (n : Nat) (s : State) : syncCheck c (advanceCore c n s) = { s with
    clk := s.clk.set c.agent (s.clk.get c.agent + BitVec.ofNat Config.clkBits (n * Config.scale c.agent))
    cores := (syncCheck c (advanceCore c n s)).cores
    pend := (syncCheck c (advanceCore c n s)).pend } := rfl

theorem satAdd_toNat (d : BitVec 32) (n : Nat) : (satAdd d n).toNat = min (d.toNat + n) 0xFFFFFFFF := by
  unfold satAdd
  rw [BitVec.toNat_ofNat]
  omega

end Sys2Proof.Laws
end

