-- ==== Sys2Proof/Laws/Exec.lean ====
section
/-! SUPPORT. What `exec` answers, row by row of the register tables, and the predicates of Safety.lean in terms of the
operations' own conditions. -/

namespace Sys2Proof.Laws
open Sys2Proof.Machine

theorem initiatorReady_of (i : Initiator) (s : State) (h : MayIssue i s) : initiatorReady i s = true :=
  (initiatorReady_iff i s).mpr h

theorem mayIssue_core (c : CoreId) (s : State) : MayIssue c.init s := fun h => absurd h (CoreId.init_ne_h c)

theorem mayIssue_dreq (s : State) : MayIssue .dreq s := fun h => nomatch h

/-- A read transaction that may be issued completes. -/
theorem transactRead_eq (i : Initiator) (l : Lanes) (g : Target) (s : State) (h : MayIssue i s) :
    transactRead i l g s =
      .next (setResult (targetRead i l g s).2 (.bus (l.mask (targetRead i l g s).1) (waitOf i g s))) := by
  unfold transactRead whenEnabled
  rw [initiatorReady_of i s h]
  rfl

/-- A write transaction that may be issued completes. -/
theorem transactWrite_eq (i : Initiator) (l : Lanes) (g : Target) (d : Word) (s : State) (h : MayIssue i s) :
    transactWrite i l g d s = .next (setResult (targetWrite i l g d s) (.bus 0 (waitOf i g s))) := by
  unfold transactWrite whenEnabled
  rw [initiatorReady_of i s h]
  rfl

/-- A transaction that may not be issued is refused. -/
theorem transactRead_refused (i : Initiator) (l : Lanes) (g : Target) (s : State) (h : ¬ MayIssue i s) :
    transactRead i l g s = .refused .notEnabled := by
  have hr : initiatorReady i s = false := by
    rw [← Bool.not_eq_true]
    exact fun e => h ((initiatorReady_iff i s).mp e)
  unfold transactRead whenEnabled
  rw [hr]
  rfl

theorem transactWrite_refused (i : Initiator) (l : Lanes) (g : Target) (d : Word) (s : State) (h : ¬ MayIssue i s) :
    transactWrite i l g d s = .refused .notEnabled := by
  have hr : initiatorReady i s = false := by
    rw [← Bool.not_eq_true]
    exact fun e => h ((initiatorReady_iff i s).mp e)
  unfold transactWrite whenEnabled
  rw [hr]
  rfl

/-- Every register read row is the read transaction of its register. -/
theorem exec_readInstr (r : Reg) (i : Initiator) (l : Lanes) (s : State) :
    exec (r.readInstr i l) s = transactRead i l (.reg r) s := by
  cases r with
  | mbox n =>
    match n with
    | 0 | 1 | 2 | 3 | 4 | 5 | 6 | 7 => rfl
  | _ => rfl

/-- Every register write row is the write transaction of its register. -/
theorem exec_writeInstr (r : Reg) (i : Initiator) (l : Lanes) (d : Word) (s : State) :
    exec (r.writeInstr i l d) s = transactWrite i l (.reg r) d s := by
  cases r with
  | mbox n =>
    match n with
    | 0 | 1 | 2 | 3 | 4 | 5 | 6 | 7 => rfl
  | _ => rfl

/-- A register read completes with the register's read value, no wait and no side effect. -/
theorem exec_reg_read (r : Reg) (i : Initiator) (l : Lanes) (s : State) (h : MayIssue i s) :
    exec (r.readInstr i l) s = .next { s with result := .bus (l.mask (regRead i r s)) 0 } := by
  rw [exec_readInstr, transactRead_eq _ _ _ _ h]
  rfl

/-- A register write completes with the register's write rule and no wait. -/
theorem exec_reg_write (r : Reg) (i : Initiator) (l : Lanes) (d : Word) (s : State) (h : MayIssue i s) :
    exec (r.writeInstr i l d) s = .next { regWrite i r l d s with result := .bus 0 0 } := by
  rw [exec_writeInstr, transactWrite_eq _ _ _ _ _ h]
  rfl

/-- A host event completes in the host's turn. -/
theorem hostEvent_eq (s s' : State) (h : HostTurn s) : hostEvent s s' = .next (setResult s' .none) := by
  unfold hostEvent whenEnabled
  rw [(hostTurn_iff s).mpr h]
  rfl

/-- A host event out of the host's turn is refused. -/
theorem hostEvent_refused (s s' : State) (h : ¬ HostTurn s) : hostEvent s s' = .refused .notEnabled := by
  have hr : hostTurn s = false := by
    rw [← Bool.not_eq_true]
    exact fun e => h ((hostTurn_iff s).mp e)
  unfold hostEvent whenEnabled
  rw [hr]
  rfl

/-- A core in its turn steps. -/
theorem exec_coreStepOf (c : CoreId) (s : State) :
    exec (coreStepOf c) s = whenEnabled (coreEnabled c s) (setResult (coreStep c s) .none) := by
  cases c <;> rfl

/-- The generic rows are the transactions of the target the map gives. -/
theorem exec_readOn (l : Lanes) (i : Initiator) (a : Long) (s : State) :
    exec (readOn l i a) s = transactRead i l (targetOf i a) s := by
  cases l <;> rfl

theorem exec_writeOn (l : Lanes) (i : Initiator) (a : Long) (d : Word) (s : State) :
    exec (writeOn l i a d) s = transactWrite i l (targetOf i a) d s := by
  cases l <;> rfl

/-- A transaction keeps what `BusKeeps` says, so it keeps the scheduler. -/
theorem sameScheduler_of_keeps {s t : State} (k : BusKeeps s t) (r : OpResult) : SameScheduler s (setResult t r) :=
  ⟨k.token, k.clk, k.pend, fun x => by cases x <;> first | rfl | exact k.aliveM | exact k.aliveS | exact k.aliveA,
    k.minSh2, k.minM68k, k.sh2, k.m68k, k.latch, k.audioOut, k.powerOns, k.ops, k.pixels, k.inside⟩

end Sys2Proof.Laws
end

