-- ==== Sys2Proof/Laws/PerInstr.lean ====
section
/-! SUPPORT. The family EncodeDecode: the word `encode` writes for a well-formed operation decodes to that operation,
one lemma per constructor of `Instr`. -/

namespace Sys2Proof.Laws

/-- The encoded word of a well-formed operation decodes, at the operation's level, to the operation. -/
def EncodeDecode.Statement (i : Instr) : Prop := i.wellFormed = true → decodeAt i.level (encode i) = some i

theorem EncodeDecode.rd16 (i : Initiator) (a : Long) : EncodeDecode.Statement (.rd16 i a) :=
  fun _ => decode_generic_busWord i .read .word a 0 rfl

theorem EncodeDecode.rd8u (i : Initiator) (a : Long) : EncodeDecode.Statement (.rd8u i a) :=
  fun _ => decode_generic_busWord i .read .upper a 0 rfl

theorem EncodeDecode.rd8l (i : Initiator) (a : Long) : EncodeDecode.Statement (.rd8l i a) :=
  fun _ => decode_generic_busWord i .read .lower a 0 rfl

theorem EncodeDecode.wr16 (i : Initiator) (a : Long) (d : Word) : EncodeDecode.Statement (.wr16 i a d) :=
  fun _ => decode_generic_busWord i .write .word a d rfl

theorem EncodeDecode.wr8u (i : Initiator) (a : Long) (d : Word) : EncodeDecode.Statement (.wr8u i a d) :=
  fun _ => decode_generic_busWord i .write .upper a d rfl

theorem EncodeDecode.wr8l (i : Initiator) (a : Long) (d : Word) : EncodeDecode.Statement (.wr8l i a d) :=
  fun _ => decode_generic_busWord i .write .lower a d rfl

theorem EncodeDecode.busNoLane (i : Initiator) (rw : Dir) (a : Long) (d : Word) : EncodeDecode.Statement (.busNoLane i rw a d) := by
  intro h
  have hd : rw.dataOk d = true := h
  simp [Instr.level, encode, decodeAt_busWord, decodeBus, hd, lanesOf]

theorem EncodeDecode.irqenRd (i : Initiator) (l : Lanes) : EncodeDecode.Statement (.irqenRd i l) :=
  fun _ => decode_regReadWord .irqen i l

theorem EncodeDecode.irqenWr (i : Initiator) (l : Lanes) (d : Word) : EncodeDecode.Statement (.irqenWr i l d) :=
  fun _ => decode_regWriteWord .irqen i l d

theorem EncodeDecode.irqstatRd (i : Initiator) (l : Lanes) : EncodeDecode.Statement (.irqstatRd i l) :=
  fun _ => decode_regReadWord .irqstat i l

theorem EncodeDecode.irqstatWr (i : Initiator) (l : Lanes) (d : Word) : EncodeDecode.Statement (.irqstatWr i l d) :=
  fun _ => decode_regWriteWord .irqstat i l d

theorem EncodeDecode.irqackRd (i : Initiator) (l : Lanes) : EncodeDecode.Statement (.irqackRd i l) :=
  fun _ => decode_regReadWord .irqack i l

theorem EncodeDecode.irqackWr (i : Initiator) (l : Lanes) (d : Word) : EncodeDecode.Statement (.irqackWr i l d) :=
  fun _ => decode_regWriteWord .irqack i l d

theorem EncodeDecode.adapterRd (i : Initiator) (l : Lanes) : EncodeDecode.Statement (.adapterRd i l) :=
  fun _ => decode_regReadWord .adapter i l

theorem EncodeDecode.adapterWr (i : Initiator) (l : Lanes) (d : Word) : EncodeDecode.Statement (.adapterWr i l d) :=
  fun _ => decode_regWriteWord .adapter i l d

theorem EncodeDecode.hperiodRd (i : Initiator) (l : Lanes) : EncodeDecode.Statement (.hperiodRd i l) :=
  fun _ => decode_regReadWord .hperiod i l

theorem EncodeDecode.hperiodWr (i : Initiator) (l : Lanes) (d : Word) : EncodeDecode.Statement (.hperiodWr i l d) :=
  fun _ => decode_regWriteWord .hperiod i l d

theorem EncodeDecode.hcounterRd (i : Initiator) (l : Lanes) : EncodeDecode.Statement (.hcounterRd i l) :=
  fun _ => decode_regReadWord .hcounter i l

theorem EncodeDecode.hcounterWr (i : Initiator) (l : Lanes) (d : Word) : EncodeDecode.Statement (.hcounterWr i l d) :=
  fun _ => decode_regWriteWord .hcounter i l d

theorem EncodeDecode.cmdreqRd (i : Initiator) (l : Lanes) : EncodeDecode.Statement (.cmdreqRd i l) :=
  fun _ => decode_regReadWord .cmdreq i l

theorem EncodeDecode.cmdreqWr (i : Initiator) (l : Lanes) (d : Word) : EncodeDecode.Statement (.cmdreqWr i l d) :=
  fun _ => decode_regWriteWord .cmdreq i l d

theorem EncodeDecode.mbox0Rd (i : Initiator) (l : Lanes) : EncodeDecode.Statement (.mbox0Rd i l) :=
  fun _ => decode_regReadWord (.mbox 0) i l

theorem EncodeDecode.mbox0Wr (i : Initiator) (l : Lanes) (d : Word) : EncodeDecode.Statement (.mbox0Wr i l d) :=
  fun _ => decode_regWriteWord (.mbox 0) i l d

theorem EncodeDecode.mbox1Rd (i : Initiator) (l : Lanes) : EncodeDecode.Statement (.mbox1Rd i l) :=
  fun _ => decode_regReadWord (.mbox 1) i l

theorem EncodeDecode.mbox1Wr (i : Initiator) (l : Lanes) (d : Word) : EncodeDecode.Statement (.mbox1Wr i l d) :=
  fun _ => decode_regWriteWord (.mbox 1) i l d

theorem EncodeDecode.mbox2Rd (i : Initiator) (l : Lanes) : EncodeDecode.Statement (.mbox2Rd i l) :=
  fun _ => decode_regReadWord (.mbox 2) i l

theorem EncodeDecode.mbox2Wr (i : Initiator) (l : Lanes) (d : Word) : EncodeDecode.Statement (.mbox2Wr i l d) :=
  fun _ => decode_regWriteWord (.mbox 2) i l d

theorem EncodeDecode.mbox3Rd (i : Initiator) (l : Lanes) : EncodeDecode.Statement (.mbox3Rd i l) :=
  fun _ => decode_regReadWord (.mbox 3) i l

theorem EncodeDecode.mbox3Wr (i : Initiator) (l : Lanes) (d : Word) : EncodeDecode.Statement (.mbox3Wr i l d) :=
  fun _ => decode_regWriteWord (.mbox 3) i l d

theorem EncodeDecode.mbox4Rd (i : Initiator) (l : Lanes) : EncodeDecode.Statement (.mbox4Rd i l) :=
  fun _ => decode_regReadWord (.mbox 4) i l

theorem EncodeDecode.mbox4Wr (i : Initiator) (l : Lanes) (d : Word) : EncodeDecode.Statement (.mbox4Wr i l d) :=
  fun _ => decode_regWriteWord (.mbox 4) i l d

theorem EncodeDecode.mbox5Rd (i : Initiator) (l : Lanes) : EncodeDecode.Statement (.mbox5Rd i l) :=
  fun _ => decode_regReadWord (.mbox 5) i l

theorem EncodeDecode.mbox5Wr (i : Initiator) (l : Lanes) (d : Word) : EncodeDecode.Statement (.mbox5Wr i l d) :=
  fun _ => decode_regWriteWord (.mbox 5) i l d

theorem EncodeDecode.mbox6Rd (i : Initiator) (l : Lanes) : EncodeDecode.Statement (.mbox6Rd i l) :=
  fun _ => decode_regReadWord (.mbox 6) i l

theorem EncodeDecode.mbox6Wr (i : Initiator) (l : Lanes) (d : Word) : EncodeDecode.Statement (.mbox6Wr i l d) :=
  fun _ => decode_regWriteWord (.mbox 6) i l d

theorem EncodeDecode.mbox7Rd (i : Initiator) (l : Lanes) : EncodeDecode.Statement (.mbox7Rd i l) :=
  fun _ => decode_regReadWord (.mbox 7) i l

theorem EncodeDecode.mbox7Wr (i : Initiator) (l : Lanes) (d : Word) : EncodeDecode.Statement (.mbox7Wr i l d) :=
  fun _ => decode_regWriteWord (.mbox 7) i l d

theorem EncodeDecode.pwmctlRd (i : Initiator) (l : Lanes) : EncodeDecode.Statement (.pwmctlRd i l) :=
  fun _ => decode_regReadWord .pwmctl i l

theorem EncodeDecode.pwmctlWr (i : Initiator) (l : Lanes) (d : Word) : EncodeDecode.Statement (.pwmctlWr i l d) :=
  fun _ => decode_regWriteWord .pwmctl i l d

theorem EncodeDecode.pwmcycRd (i : Initiator) (l : Lanes) : EncodeDecode.Statement (.pwmcycRd i l) :=
  fun _ => decode_regReadWord .pwmcyc i l

theorem EncodeDecode.pwmcycWr (i : Initiator) (l : Lanes) (d : Word) : EncodeDecode.Statement (.pwmcycWr i l d) :=
  fun _ => decode_regWriteWord .pwmcyc i l d

theorem EncodeDecode.pwmlRd (i : Initiator) (l : Lanes) : EncodeDecode.Statement (.pwmlRd i l) :=
  fun _ => decode_regReadWord .pwml i l

theorem EncodeDecode.pwmlWr (i : Initiator) (l : Lanes) (d : Word) : EncodeDecode.Statement (.pwmlWr i l d) :=
  fun _ => decode_regWriteWord .pwml i l d

theorem EncodeDecode.pwmrRd (i : Initiator) (l : Lanes) : EncodeDecode.Statement (.pwmrRd i l) :=
  fun _ => decode_regReadWord .pwmr i l

theorem EncodeDecode.pwmrWr (i : Initiator) (l : Lanes) (d : Word) : EncodeDecode.Statement (.pwmrWr i l d) :=
  fun _ => decode_regWriteWord .pwmr i l d

theorem EncodeDecode.dreqctlRd (i : Initiator) (l : Lanes) : EncodeDecode.Statement (.dreqctlRd i l) :=
  fun _ => decode_regReadWord .dreqctl i l

theorem EncodeDecode.dreqctlWr (i : Initiator) (l : Lanes) (d : Word) : EncodeDecode.Statement (.dreqctlWr i l d) :=
  fun _ => decode_regWriteWord .dreqctl i l d

theorem EncodeDecode.dreqsrchRd (i : Initiator) (l : Lanes) : EncodeDecode.Statement (.dreqsrchRd i l) :=
  fun _ => decode_regReadWord .dreqsrch i l

theorem EncodeDecode.dreqsrchWr (i : Initiator) (l : Lanes) (d : Word) : EncodeDecode.Statement (.dreqsrchWr i l d) :=
  fun _ => decode_regWriteWord .dreqsrch i l d

theorem EncodeDecode.dreqsrclRd (i : Initiator) (l : Lanes) : EncodeDecode.Statement (.dreqsrclRd i l) :=
  fun _ => decode_regReadWord .dreqsrcl i l

theorem EncodeDecode.dreqsrclWr (i : Initiator) (l : Lanes) (d : Word) : EncodeDecode.Statement (.dreqsrclWr i l d) :=
  fun _ => decode_regWriteWord .dreqsrcl i l d

theorem EncodeDecode.dreqdsthRd (i : Initiator) (l : Lanes) : EncodeDecode.Statement (.dreqdsthRd i l) :=
  fun _ => decode_regReadWord .dreqdsth i l

theorem EncodeDecode.dreqdsthWr (i : Initiator) (l : Lanes) (d : Word) : EncodeDecode.Statement (.dreqdsthWr i l d) :=
  fun _ => decode_regWriteWord .dreqdsth i l d

theorem EncodeDecode.dreqdstlRd (i : Initiator) (l : Lanes) : EncodeDecode.Statement (.dreqdstlRd i l) :=
  fun _ => decode_regReadWord .dreqdstl i l

theorem EncodeDecode.dreqdstlWr (i : Initiator) (l : Lanes) (d : Word) : EncodeDecode.Statement (.dreqdstlWr i l d) :=
  fun _ => decode_regWriteWord .dreqdstl i l d

theorem EncodeDecode.dreqlenRd (i : Initiator) (l : Lanes) : EncodeDecode.Statement (.dreqlenRd i l) :=
  fun _ => decode_regReadWord .dreqlen i l

theorem EncodeDecode.dreqlenWr (i : Initiator) (l : Lanes) (d : Word) : EncodeDecode.Statement (.dreqlenWr i l d) :=
  fun _ => decode_regWriteWord .dreqlen i l d

theorem EncodeDecode.vdpmodeRd (i : Initiator) (l : Lanes) : EncodeDecode.Statement (.vdpmodeRd i l) :=
  fun _ => decode_regReadWord .vdpmode i l

theorem EncodeDecode.vdpmodeWr (i : Initiator) (l : Lanes) (d : Word) : EncodeDecode.Statement (.vdpmodeWr i l d) :=
  fun _ => decode_regWriteWord .vdpmode i l d

theorem EncodeDecode.vdpshiftRd (i : Initiator) (l : Lanes) : EncodeDecode.Statement (.vdpshiftRd i l) :=
  fun _ => decode_regReadWord .vdpshift i l

theorem EncodeDecode.vdpshiftWr (i : Initiator) (l : Lanes) (d : Word) : EncodeDecode.Statement (.vdpshiftWr i l d) :=
  fun _ => decode_regWriteWord .vdpshift i l d

theorem EncodeDecode.aflenRd (i : Initiator) (l : Lanes) : EncodeDecode.Statement (.aflenRd i l) :=
  fun _ => decode_regReadWord .aflen i l

theorem EncodeDecode.aflenWr (i : Initiator) (l : Lanes) (d : Word) : EncodeDecode.Statement (.aflenWr i l d) :=
  fun _ => decode_regWriteWord .aflen i l d

theorem EncodeDecode.afaddrRd (i : Initiator) (l : Lanes) : EncodeDecode.Statement (.afaddrRd i l) :=
  fun _ => decode_regReadWord .afaddr i l

theorem EncodeDecode.afaddrWr (i : Initiator) (l : Lanes) (d : Word) : EncodeDecode.Statement (.afaddrWr i l d) :=
  fun _ => decode_regWriteWord .afaddr i l d

theorem EncodeDecode.afdataRd (i : Initiator) (l : Lanes) : EncodeDecode.Statement (.afdataRd i l) :=
  fun _ => decode_regReadWord .afdata i l

theorem EncodeDecode.afdataWr (i : Initiator) (l : Lanes) (d : Word) : EncodeDecode.Statement (.afdataWr i l d) :=
  fun _ => decode_regWriteWord .afdata i l d

theorem EncodeDecode.fbctlRd (i : Initiator) (l : Lanes) : EncodeDecode.Statement (.fbctlRd i l) :=
  fun _ => decode_regReadWord .fbctl i l

theorem EncodeDecode.fbctlWr (i : Initiator) (l : Lanes) (d : Word) : EncodeDecode.Statement (.fbctlWr i l d) :=
  fun _ => decode_regWriteWord .fbctl i l d

theorem EncodeDecode.bootromRd (c : CoreId) (l : Lanes) (off : BitVec 14) : EncodeDecode.Statement (.bootromRd c l off) := by
  intro _
  have hs : ((0 : BitVec 18) ++ off).setWidth 14 = off := setWidth_append_low _ _
  refine (decode_target_busWord c.init .read l _ 0 rfl).trans ?_
  simp only [targetInstr, targetOf_bootrom c off, hs]

theorem EncodeDecode.paletteRd (i : Initiator) (l : Lanes) (off : BitVec 9) : EncodeDecode.Statement (.paletteRd i l off) := by
  intro _
  have hs : ((0x21 : BitVec 23) ++ off).setWidth 9 = off := setWidth_append_low _ _
  refine (decode_target_busWord i .read l _ 0 rfl).trans ?_
  simp only [targetInstr, targetOf_palette i off, hs]

theorem EncodeDecode.vramRd (i : Initiator) (l : Lanes) (off : BitVec 17) : EncodeDecode.Statement (.vramRd i l off) := by
  intro _
  have hs : ((2 : BitVec 15) ++ off).setWidth 17 = off := setWidth_append_low _ _
  refine (decode_target_busWord i .read l _ 0 rfl).trans ?_
  simp only [targetInstr, targetOf_vram i off, hs]

theorem EncodeDecode.sdramLoRd (i : Initiator) (l : Lanes) (off : BitVec 17) : EncodeDecode.Statement (.sdramLoRd i l off) := by
  intro _
  have hs : ((3 : BitVec 15) ++ off).setWidth 17 = off := setWidth_append_low _ _
  refine (decode_target_busWord i .read l _ 0 rfl).trans ?_
  simp only [targetInstr, targetOf_sdramLo i off, hs]
  rw [if_pos (sdramLo_below off)]

theorem EncodeDecode.sdramHiRd (i : Initiator) (l : Lanes) (off : BitVec 17) : EncodeDecode.Statement (.sdramHiRd i l off) := by
  intro _
  have hs : ((4 : BitVec 15) ++ off).setWidth 17 = off := setWidth_append_low _ _
  refine (decode_target_busWord i .read l _ 0 rfl).trans ?_
  simp only [targetInstr, targetOf_sdramHi i off, hs]
  rw [if_neg (sdramHi_above off)]

theorem EncodeDecode.reservedRd (i : Initiator) (l : Lanes) (off : BitVec 10) : EncodeDecode.Statement (.reservedRd i l off) := by
  intro h
  have hp : pageEntry off = .reserved := by simpa [Instr.wellFormed, reservedOffset] using h
  refine (decode_target_busWord i .read l _ 0 rfl).trans ?_
  simp [targetInstr, targetOf_pageAddr, hp, PageEntry.target, pageAddr_setWidth]

theorem EncodeDecode.externalRd (i : Initiator) (l : Lanes) (a : Long) : EncodeDecode.Statement (.externalRd i l a) := by
  intro h
  have ht : targetOf i a = .external (evenAddr a) := by simpa [Instr.wellFormed, externalAddr] using h
  refine (decode_target_busWord i .read l _ 0 rfl).trans ?_
  simp [targetInstr, ht]

theorem EncodeDecode.bootromWr (c : CoreId) (l : Lanes) (off : BitVec 14) (d : Word) : EncodeDecode.Statement (.bootromWr c l off d) := by
  intro _
  have hs : ((0 : BitVec 18) ++ off).setWidth 14 = off := setWidth_append_low _ _
  refine (decode_target_busWord c.init .write l _ d rfl).trans ?_
  simp only [targetInstr, targetOf_bootrom c off, hs]

theorem EncodeDecode.paletteWr (i : Initiator) (l : Lanes) (off : BitVec 9) (d : Word) : EncodeDecode.Statement (.paletteWr i l off d) := by
  intro _
  have hs : ((0x21 : BitVec 23) ++ off).setWidth 9 = off := setWidth_append_low _ _
  refine (decode_target_busWord i .write l _ d rfl).trans ?_
  simp only [targetInstr, targetOf_palette i off, hs]

theorem EncodeDecode.vramWr (i : Initiator) (l : Lanes) (off : BitVec 17) (d : Word) : EncodeDecode.Statement (.vramWr i l off d) := by
  intro _
  have hs : ((2 : BitVec 15) ++ off).setWidth 17 = off := setWidth_append_low _ _
  refine (decode_target_busWord i .write l _ d rfl).trans ?_
  simp only [targetInstr, targetOf_vram i off, hs]

theorem EncodeDecode.sdramLoWr (i : Initiator) (l : Lanes) (off : BitVec 17) (d : Word) : EncodeDecode.Statement (.sdramLoWr i l off d) := by
  intro _
  have hs : ((3 : BitVec 15) ++ off).setWidth 17 = off := setWidth_append_low _ _
  refine (decode_target_busWord i .write l _ d rfl).trans ?_
  simp only [targetInstr, targetOf_sdramLo i off, hs]
  rw [if_pos (sdramLo_below off)]

theorem EncodeDecode.sdramHiWr (i : Initiator) (l : Lanes) (off : BitVec 17) (d : Word) : EncodeDecode.Statement (.sdramHiWr i l off d) := by
  intro _
  have hs : ((4 : BitVec 15) ++ off).setWidth 17 = off := setWidth_append_low _ _
  refine (decode_target_busWord i .write l _ d rfl).trans ?_
  simp only [targetInstr, targetOf_sdramHi i off, hs]
  rw [if_neg (sdramHi_above off)]

theorem EncodeDecode.reservedWr (i : Initiator) (l : Lanes) (off : BitVec 10) (d : Word) : EncodeDecode.Statement (.reservedWr i l off d) := by
  intro h
  have hp : pageEntry off = .reserved := by simpa [Instr.wellFormed, reservedOffset] using h
  refine (decode_target_busWord i .write l _ d rfl).trans ?_
  simp [targetInstr, targetOf_pageAddr, hp, PageEntry.target, pageAddr_setWidth]

theorem EncodeDecode.externalWr (i : Initiator) (l : Lanes) (a : Long) (d : Word) : EncodeDecode.Statement (.externalWr i l a d) := by
  intro h
  have ht : targetOf i a = .external (evenAddr a) := by simpa [Instr.wellFormed, externalAddr] using h
  refine (decode_target_busWord i .write l _ d rfl).trans ?_
  simp [targetInstr, ht]

theorem EncodeDecode.power (reset : Bool) : EncodeDecode.Statement (.power reset) := by
  intro _
  simp [Instr.level, encode, decodeAt_eventWord, decodeEvent]

theorem EncodeDecode.restart : EncodeDecode.Statement (.restart) := by
  intro _
  simp [Instr.level, encode, decodeAt_eventWord, decodeEvent]

theorem EncodeDecode.unload : EncodeDecode.Statement (.unload) := by
  intro _
  simp [Instr.level, encode, decodeAt_eventWord, decodeEvent]

theorem EncodeDecode.vblank (level : Bool) : EncodeDecode.Statement (.vblank level) := by
  intro _
  simp [Instr.level, encode, decodeAt_eventWord, decodeEvent]

theorem EncodeDecode.hblank (level : Bool) : EncodeDecode.Statement (.hblank level) := by
  intro _
  simp [Instr.level, encode, decodeAt_eventWord, decodeEvent]

theorem EncodeDecode.scanline (y : BitVec 9) : EncodeDecode.Statement (.scanline y) := by
  intro _
  have hh : ((0 : BitVec 23) ++ y).extractLsb' 9 23 = 0 := (field_high _ _ (by omega)).trans (field_whole _)
  have hl : ((0 : BitVec 23) ++ y).extractLsb' 0 9 = y := (field_low _ _ (by omega)).trans (field_whole _)
  refine (decodeAt_eventWord .target 0x12 _).trans ?_
  simpa [decodeEvent] using And.intro hh hl

theorem EncodeDecode.hostAdvance (n : BitVec 32) : EncodeDecode.Statement (.hostAdvance n) := by
  intro _
  simp [Instr.level, encode, decodeAt_eventWord, decodeEvent]

theorem EncodeDecode.hostSync : EncodeDecode.Statement (.hostSync) := by
  intro _
  simp [Instr.level, encode, decodeAt_eventWord, decodeEvent]

theorem EncodeDecode.coreStepM : EncodeDecode.Statement (.coreStepM) := by
  intro _
  simp [Instr.level, encode, decodeAt_internalWord, decodeInternal]

theorem EncodeDecode.coreStepS : EncodeDecode.Statement (.coreStepS) := by
  intro _
  simp [Instr.level, encode, decodeAt_internalWord, decodeInternal]

theorem EncodeDecode.syncResolve (thr : Agent) : EncodeDecode.Statement (.syncResolve thr) := by
  intro _
  simp [Instr.level, encode, decodeAt_internalWord, decodeInternal]

theorem EncodeDecode.audioStep : EncodeDecode.Statement (.audioStep) := by
  intro _
  simp [Instr.level, encode, decodeAt_internalWord, decodeInternal]

theorem EncodeDecode.pwmTimerStep : EncodeDecode.Statement (.pwmTimerStep) := by
  intro _
  simp [Instr.level, encode, decodeAt_internalWord, decodeInternal]

theorem EncodeDecode.sampleTick : EncodeDecode.Statement (.sampleTick) := by
  intro _
  simp [Instr.level, encode, decodeAt_internalWord, decodeInternal]

theorem EncodeDecode.fifoWrite (thr : Agent) (ch : Channel) (sample : BitVec 12) : EncodeDecode.Statement (.fifoWrite thr ch sample) := by
  intro _
  refine (decodeAt_internalWord .target _ _ _).trans ?_
  simp [decodeInternal, channelArg_high, channelArg_channel, channelArg_sample]

theorem EncodeDecode.fifoRead (ch : Channel) : EncodeDecode.Statement (.fifoRead ch) := by
  intro _
  refine (decodeAt_internalWord .target _ _ _).trans ?_
  simp [decodeInternal, channelArg_high, channelArg_channel, channelArg_sample]

theorem EncodeDecode.fifoDrain (ch : Channel) : EncodeDecode.Statement (.fifoDrain ch) := by
  intro _
  refine (decodeAt_internalWord .target _ _ _).trans ?_
  simp [decodeInternal, channelArg_high, channelArg_channel, channelArg_sample]

theorem EncodeDecode.dreqStep : EncodeDecode.Statement (.dreqStep) := by
  intro _
  simp [Instr.level, encode, decodeAt_internalWord, decodeInternal]

theorem EncodeDecode.autofillStep : EncodeDecode.Statement (.autofillStep) := by
  intro _
  simp [Instr.level, encode, decodeAt_internalWord, decodeInternal]

theorem EncodeDecode.irqRaise (thr : Agent) (c : CoreId) (src : Source) : EncodeDecode.Statement (.irqRaise thr c src) := by
  intro _
  cases thr <;> cases c <;> cases src <;> rfl

theorem EncodeDecode.irqQueryM : EncodeDecode.Statement (.irqQueryM) := by
  intro _
  simp [Instr.level, encode, decodeAt_internalWord, decodeInternal]

theorem EncodeDecode.irqQueryS : EncodeDecode.Statement (.irqQueryS) := by
  intro _
  simp [Instr.level, encode, decodeAt_internalWord, decodeInternal]

theorem EncodeDecode.irqDispatchM (src : Source) : EncodeDecode.Statement (.irqDispatchM src) := by
  intro _
  simp [Instr.level, encode, decodeAt_internalWord, decodeInternal]

theorem EncodeDecode.irqDispatchS (src : Source) : EncodeDecode.Statement (.irqDispatchS src) := by
  intro _
  simp [Instr.level, encode, decodeAt_internalWord, decodeInternal]

theorem EncodeDecode.latchCommit : EncodeDecode.Statement (.latchCommit) := by
  intro _
  simp [Instr.level, encode, decodeAt_internalWord, decodeInternal]

theorem EncodeDecode.fbCommit (thr : Agent) : EncodeDecode.Statement (.fbCommit thr) := by
  intro _
  simp [Instr.level, encode, decodeAt_internalWord, decodeInternal]

theorem EncodeDecode.selectFb (thr : Agent) (bank : Bool) : EncodeDecode.Statement (.selectFb thr bank) := by
  intro _
  simp [Instr.level, encode, decodeAt_internalWord, decodeInternal]

end Sys2Proof.Laws
end

