-- ==== Sys2Proof/Laws/Step.lean ====
section
/-! SUPPORT. What `step` can be: the enabled internal step, or the next presented word where it may be performed. -/

namespace Sys2Proof.Laws
open Sys2Proof.Machine

/-- Inside an operation no internal step is enabled. -/
theorem internalStep_inside (s : State) (op : Operation) (h : s.inside = some op) : internalStep s = none := by
  unfold internalStep
  rw [h]
  rfl

/-- While the token holder does not exist no internal step is enabled. -/
theorem internalStep_not_alive (s : State) (h : s.alive s.token = false) : internalStep s = none := by
  unfold internalStep
  rw [h, Bool.and_false]
  rfl

/-- The internal step that is enabled: outside every operation, of the token holder, which exists, by its queue. -/
theorem internalStep_eq_some (s : State) (i : Instr) (h : internalStep s = some i) :
    s.inside = none ∧ s.alive s.token = true ∧
      ((i = .syncResolve s.token ∧ s.pend.get s.token ≠ []) ∨
        (s.pend.get s.token = [] ∧
          ((s.token = .m ∧ i = .coreStepM) ∨ (s.token = .s ∧ i = .coreStepS) ∨ (s.token = .a ∧ i = .audioStep)))) := by
  unfold internalStep at h
  split at h
  · next hc =>
    obtain ⟨hi, ha⟩ := Bool.and_eq_true_iff.mp hc
    refine ⟨Option.isNone_iff_eq_none.mp hi, ha, ?_⟩
    split at h
    · next hp =>
      refine .inl ⟨(Option.some.inj h).symm, ?_⟩
      rw [hp]
      exact List.cons_ne_nil _ _
    · next hp ht => exact .inr ⟨hp, .inl ⟨ht, (Option.some.inj h).symm⟩⟩
    · next hp ht => exact .inr ⟨hp, .inr (.inl ⟨ht, (Option.some.inj h).symm⟩)⟩
    · next hp ht => exact .inr ⟨hp, .inr (.inr ⟨ht, (Option.some.inj h).symm⟩)⟩
    · exact nomatch h
  · exact nomatch h

/-- No internal step is enabled exactly inside an operation, while the token holder does not exist, and in the host's
turn. -/
theorem internalStep_eq_none (s : State) :
    internalStep s = none ↔ s.inside ≠ none ∨ s.alive s.token = false ∨ HostTurn s := by
  unfold internalStep HostTurn
  rcases hi : s.inside with _ | t
  · rcases ha : s.alive s.token
    · simp
    · rcases ht : s.token <;> rcases hp : s.pend.get s.token with _ | ⟨p, rest⟩ <;> rw [ht] at hp <;> simp_all
  · simp

/-- `SYNC_RESOLVE` answers a next state exactly for a token holder that exists and has a partner queued. -/
theorem exec_syncResolve_next {q : Agent} {s t : State} :
    exec (.syncResolve q) s = .next t ↔ s.token = q ∧ s.alive q = true ∧
      ∃ p rest, s.pend.get q = p :: rest ∧ setResult (syncResolve q p rest s) .none = t := by
  show execSyncResolve q s = .next t ↔ _
  unfold execSyncResolve
  split
  · next p rest hp =>
    rw [whenEnabled_next, hp]
    constructor
    · rintro ⟨he, rfl⟩
      obtain ⟨h1, h2⟩ := Bool.and_eq_true_iff.mp he
      exact ⟨eq_of_beq h1, h2, p, rest, rfl, rfl⟩
    · rintro ⟨h1, h2, p', rest', hc, rfl⟩
      obtain ⟨rfl, rfl⟩ := List.cons.inj hc
      exact ⟨Bool.and_eq_true_iff.mpr ⟨beq_iff_eq.mpr h1, h2⟩, rfl⟩
  · next hp =>
    rw [hp]
    exact ⟨nofun, fun ⟨_, _, _, _, hc, _⟩ => nomatch hc⟩

/-- A step that answers a next state is the enabled internal step, or the next presented word in a place where it may be
performed. -/
theorem step_cases {s t : State} (h : step s = .next t) :
    (∃ i, internalStep s = some i ∧ exec i s = .next t) ∨
      ∃ w rest i, internalStep s = none ∧ s.ops = w :: rest ∧ decode w = some i ∧
        mayPerform (instrPlace i) s = true ∧ exec i { s with ops := rest } = .next t := by
  unfold step at h
  split at h
  · next i hi => exact .inl ⟨i, hi, h⟩
  · next hi =>
    unfold hostStep at h
    split at h
    · exact nomatch h
    · next w rest hw =>
      split at h
      · next i hd =>
        split at h
        · next hm => exact .inr ⟨w, rest, i, hi, hw, hd, hm, h⟩
        · exact nomatch h
      · exact nomatch h

/-- An operation of its own is performed outside every other. -/
@[simp] theorem mayPerform_alone (s : State) : mayPerform .alone s = true ↔ s.inside = none := by
  unfold mayPerform
  rcases s.inside with _ | op <;> simp

@[simp] theorem mayPerform_anywhere (s : State) : mayPerform .anywhere s = true := rfl

/-- An inner operation is performed inside an operation that calls it and can be in progress. -/
@[simp] theorem mayPerform_within (l : List Operation) (s : State) :
    mayPerform (.within l) s = true ↔ ∃ op ∈ l, s.inside = some op ∧ canBeInside op s = true := by
  unfold mayPerform
  rcases s.inside with _ | op <;> simp

/-- A transaction of a core is performed inside its normal step, while it holds the token, exists and is not
synchronising. -/
theorem mayPerform_core (c : CoreId) (s : State) :
    mayPerform (initiatorPlace c.init) s = true ↔
      s.inside = some (.normalStep c) ∧ s.token = c.agent ∧ s.alive c.agent = true ∧ s.pend.get c.agent = [] := by
  have e : initiatorPlace c.init = .within [.normalStep c] := by cases c <;> rfl
  rw [e, mayPerform_within]
  simp [canBeInside, coreEnabled_iff]

/-- A transaction of DREQ is performed inside `DREQ_STEP`, in the audio engine's step, while a transfer is active. -/
theorem mayPerform_dreq (s : State) :
    mayPerform (initiatorPlace .dreq) s = true ↔
      s.inside = some .dreqStep ∧ s.token = .a ∧ s.aliveA = true ∧ s.pend.a = [] ∧ s.dreq.active = true := by
  have e : initiatorPlace .dreq = .within [.dreqStep] := rfl
  rw [e, mayPerform_within]
  simp [canBeInside, audioEnabled_iff, and_assoc]

/-- A generic read stands where its initiator's transactions stand. -/
theorem instrPlace_readOn (l : Lanes) (i : Initiator) (a : Long) : instrPlace (readOn l i a) = initiatorPlace i := by
  cases l <;> rfl

/-- A generic write stands where its initiator's transactions stand. -/
theorem instrPlace_writeOn (l : Lanes) (i : Initiator) (a : Long) (d : Word) :
    instrPlace (writeOn l i a d) = initiatorPlace i := by
  cases l <;> rfl

/-- A register read stands where its initiator's transactions stand. -/
theorem instrPlace_readInstr (r : Reg) (i : Initiator) (l : Lanes) :
    instrPlace (r.readInstr i l) = initiatorPlace i := by
  cases r with
  | mbox n =>
    match n with
    | 0 | 1 | 2 | 3 | 4 | 5 | 6 | 7 => rfl
  | _ => rfl

/-- A register write stands where its initiator's transactions stand. -/
theorem instrPlace_writeInstr (r : Reg) (i : Initiator) (l : Lanes) (d : Word) :
    instrPlace (r.writeInstr i l d) = initiatorPlace i := by
  cases r with
  | mbox n =>
    match n with
    | 0 | 1 | 2 | 3 | 4 | 5 | 6 | 7 => rfl
  | _ => rfl

end Sys2Proof.Laws
end

