-- ==== Sys2Proof/Tests/Slice0.lean ====
section
/-! SUPPORT. Tests: the checks of WellFormed, a word of every row decoded, one step of the rows whose effect the vectors
of spec/95_test_vectors.md give in numbers, and for every obligation with hypotheses a witness that meets them. A
vector is cited as V<n>. Expected values are the vectors', or written out by hand from the rule cited. -/

namespace Sys2Proof.Tests
open Sys2Proof Sys2Proof.Machine Sys2Proof.Laws

/-! ### WellFormed: an ill-formed term for each check -/

/-- R121: the data of a read must be 0. -/
theorem test_ill_read_data : (Instr.busNoLane .h .read 0x4020 1).wellFormed = false := by decide
/-- A register lies at offset 0x00C, and the palette at 0x200: neither is reserved. -/
theorem test_ill_reserved_read : (Instr.reservedRd .h .word 0x00C).wellFormed = false ∧
    (Instr.reservedRd .m .word 0x200).wellFormed = false := by decide
theorem test_ill_reserved_write : (Instr.reservedWr .h .word 0x10A 0).wellFormed = false := by decide
/-- SDRAM is not external; address 0 is the boot ROM of a core. -/
theorem test_ill_external_read : (Instr.externalRd .h .word 0x60000).wellFormed = false ∧
    (Instr.externalRd .m .word 0).wellFormed = false := by decide
theorem test_ill_external_write : (Instr.externalWr .s .word 0x4200 0).wellFormed = false := by decide

/-! ### Decoding: words written out from the encoding tables -/

/-- R121, R126: class 1, initiator, direction, lanes, address, data. -/
theorem test_decode_generic :
    decodeAt .generic 0x1180000040200000 = some (.rd16 .h 0x4020) ∧
    decodeAt .generic 0x1500000600010000 = some (.rd8u .m 0x60001) ∧
    decodeAt .generic 0x1880FFFFFFFF0000 = some (.rd8l .s 0xFFFFFFFF) ∧
    decodeAt .generic 0x1F8000040000ABCD = some (.wr16 .dreq 0x40000 0xABCD) ∧
    decodeAt .generic 0x1300000042001200 = some (.wr8u .h 0x4200 0x1200) ∧
    decodeAt .generic 0x168000004001001F = some (.wr8l .m 0x4001 0x1F) ∧
    decodeAt .generic 0x1A000009FFFEFFFF = some (.busNoLane .s .write 0x9FFFE 0xFFFF) := by decide

/-- The register addresses of R50 to R52, R56 of 10_state.md. -/
theorem test_decode_interrupt_registers :
    decodeAt .target 0x1180000040000000 = some (.irqenRd .h .word) ∧
    decodeAt .target 0x1380000040001234 = some (.irqenWr .h .word 0x1234) ∧
    decodeAt .target 0x1500000040020000 = some (.irqstatRd .m .upper) ∧
    decodeAt .target 0x1700000040022345 = some (.irqstatWr .m .upper 0x2345) ∧
    decodeAt .target 0x1880000040040000 = some (.irqackRd .s .lower) ∧
    decodeAt .target 0x1A80000040043456 = some (.irqackWr .s .lower 0x3456) ∧
    decodeAt .target 0x1D800000400C0000 = some (.cmdreqRd .dreq .word) ∧
    decodeAt .target 0x1F800000400C4567 = some (.cmdreqWr .dreq .word 0x4567) := by decide

/-- The register addresses of R53 to R55 of 10_state.md. -/
theorem test_decode_io_registers :
    decodeAt .target 0x1100000040060000 = some (.adapterRd .h .upper) ∧
    decodeAt .target 0x1300000040065678 = some (.adapterWr .h .upper 0x5678) ∧
    decodeAt .target 0x1480000040080000 = some (.hperiodRd .m .lower) ∧
    decodeAt .target 0x1680000040086789 = some (.hperiodWr .m .lower 0x6789) ∧
    decodeAt .target 0x19800000400A0000 = some (.hcounterRd .s .word) ∧
    decodeAt .target 0x1B800000400A789A = some (.hcounterWr .s .word 0x789A) := by decide

/-- The register addresses of R58 of 10_state.md. -/
theorem test_decode_mailbox_registers :
    decodeAt .target 0x1D00000040200000 = some (.mbox0Rd .dreq .upper) ∧
    decodeAt .target 0x1F000000402089AB = some (.mbox0Wr .dreq .upper 0x89AB) ∧
    decodeAt .target 0x1080000040220000 = some (.mbox1Rd .h .lower) ∧
    decodeAt .target 0x1280000040229ABC = some (.mbox1Wr .h .lower 0x9ABC) ∧
    decodeAt .target 0x1580000040240000 = some (.mbox2Rd .m .word) ∧
    decodeAt .target 0x178000004024ABCD = some (.mbox2Wr .m .word 0xABCD) ∧
    decodeAt .target 0x1900000040260000 = some (.mbox3Rd .s .upper) ∧
    decodeAt .target 0x1B0000004026BCDE = some (.mbox3Wr .s .upper 0xBCDE) ∧
    decodeAt .target 0x1C80000040280000 = some (.mbox4Rd .dreq .lower) ∧
    decodeAt .target 0x1E8000004028CDEF = some (.mbox4Wr .dreq .lower 0xCDEF) ∧
    decodeAt .target 0x11800000402A0000 = some (.mbox5Rd .h .word) ∧
    decodeAt .target 0x13800000402ADF00 = some (.mbox5Wr .h .word 0xDF00) ∧
    decodeAt .target 0x15000000402C0000 = some (.mbox6Rd .m .upper) ∧
    decodeAt .target 0x17000000402CF011 = some (.mbox6Wr .m .upper 0xF011) ∧
    decodeAt .target 0x18800000402E0000 = some (.mbox7Rd .s .lower) ∧
    decodeAt .target 0x1A800000402E0122 = some (.mbox7Wr .s .lower 0x0122) := by decide

/-- The register addresses of R59, R60, R63, R64 of 10_state.md. -/
theorem test_decode_pwm_registers :
    decodeAt .target 0x1D80000040300000 = some (.pwmctlRd .dreq .word) ∧
    decodeAt .target 0x1F80000040301233 = some (.pwmctlWr .dreq .word 0x1233) ∧
    decodeAt .target 0x1100000040320000 = some (.pwmcycRd .h .upper) ∧
    decodeAt .target 0x1300000040322344 = some (.pwmcycWr .h .upper 0x2344) ∧
    decodeAt .target 0x1480000040340000 = some (.pwmlRd .m .lower) ∧
    decodeAt .target 0x1680000040343455 = some (.pwmlWr .m .lower 0x3455) ∧
    decodeAt .target 0x1980000040360000 = some (.pwmrRd .s .word) ∧
    decodeAt .target 0x1B80000040364566 = some (.pwmrWr .s .word 0x4566) := by decide

/-- The register addresses of R65, R66 of 10_state.md. -/
theorem test_decode_dreq_registers :
    decodeAt .target 0x1D00000040400000 = some (.dreqctlRd .dreq .upper) ∧
    decodeAt .target 0x1F00000040405677 = some (.dreqctlWr .dreq .upper 0x5677) ∧
    decodeAt .target 0x1080000040420000 = some (.dreqsrchRd .h .lower) ∧
    decodeAt .target 0x1280000040426788 = some (.dreqsrchWr .h .lower 0x6788) ∧
    decodeAt .target 0x1580000040440000 = some (.dreqsrclRd .m .word) ∧
    decodeAt .target 0x1780000040447899 = some (.dreqsrclWr .m .word 0x7899) ∧
    decodeAt .target 0x1900000040460000 = some (.dreqdsthRd .s .upper) ∧
    decodeAt .target 0x1B000000404689AA = some (.dreqdsthWr .s .upper 0x89AA) ∧
    decodeAt .target 0x1C80000040480000 = some (.dreqdstlRd .dreq .lower) ∧
    decodeAt .target 0x1E80000040489ABB = some (.dreqdstlWr .dreq .lower 0x9ABB) ∧
    decodeAt .target 0x11800000404A0000 = some (.dreqlenRd .h .word) ∧
    decodeAt .target 0x13800000404AABCC = some (.dreqlenWr .h .word 0xABCC) := by decide

/-- The register addresses of R67 to R71 of 10_state.md. -/
theorem test_decode_vdp_registers :
    decodeAt .target 0x1500000041000000 = some (.vdpmodeRd .m .upper) ∧
    decodeAt .target 0x170000004100BCDD = some (.vdpmodeWr .m .upper 0xBCDD) ∧
    decodeAt .target 0x1880000041020000 = some (.vdpshiftRd .s .lower) ∧
    decodeAt .target 0x1A8000004102CDEE = some (.vdpshiftWr .s .lower 0xCDEE) ∧
    decodeAt .target 0x1D80000041040000 = some (.aflenRd .dreq .word) ∧
    decodeAt .target 0x1F8000004104DEFF = some (.aflenWr .dreq .word 0xDEFF) ∧
    decodeAt .target 0x1100000041060000 = some (.afaddrRd .h .upper) ∧
    decodeAt .target 0x130000004106F010 = some (.afaddrWr .h .upper 0xF010) ∧
    decodeAt .target 0x1480000041080000 = some (.afdataRd .m .lower) ∧
    decodeAt .target 0x1680000041080121 = some (.afdataWr .m .lower 0x0121) ∧
    decodeAt .target 0x19800000410A0000 = some (.fbctlRd .s .word) ∧
    decodeAt .target 0x1B800000410A1232 = some (.fbctlWr .s .word 0x1232) := by decide

/-- The windows of 20_memory.md R84, each at its first or last address. -/
theorem test_decode_windows :
    decodeAt .target 0x1580000000000000 = some (.bootromRd .m .word 0) ∧
    decodeAt .target 0x1A8000003FFF0007 = some (.bootromWr .s .lower 0x3FFF 7) ∧
    decodeAt .target 0x1100000042000000 = some (.paletteRd .h .upper 0) ∧
    decodeAt .target 0x1F80000043FE0001 = some (.paletteWr .dreq .word 0x1FE 1) ∧
    decodeAt .target 0x1580000400000000 = some (.vramRd .m .word 0) ∧
    decodeAt .target 0x1A800005FFFF0002 = some (.vramWr .s .lower 0x1FFFF 2) ∧
    decodeAt .target 0x1180000600000000 = some (.sdramLoRd .h .word 0) ∧
    decodeAt .target 0x17800007FFFE0003 = some (.sdramLoWr .m .word 0x1FFFE 3) ∧
    decodeAt .target 0x1D80000800000000 = some (.sdramHiRd .dreq .word 0) ∧
    decodeAt .target 0x1B000009FFFE0004 = some (.sdramHiWr .s .upper 0x1FFFE 4) ∧
    decodeAt .target 0x11800000400E0000 = some (.reservedRd .h .word 0x00E) ∧
    decodeAt .target 0x1780000041FE0005 = some (.reservedWr .m .word 0x1FE 5) ∧
    decodeAt .target 0x118000003FFE0000 = some (.externalRd .h .word 0x3FFE) ∧
    decodeAt .target 0x1780000A00000006 = some (.externalWr .m .word 0xA0000 6) := by decide

/-- R122, R124. -/
theorem test_decode_events :
    decodeAt .generic 0x2010000000000001 = some (.power true) ∧
    decodeAt .generic 0x2020000000000000 = some .restart ∧
    decodeAt .generic 0x2030000000000000 = some .unload ∧
    decodeAt .generic 0x2100000000000001 = some (.vblank true) ∧
    decodeAt .generic 0x2110000000000000 = some (.hblank false) ∧
    decodeAt .generic 0x21200000000001FF = some (.scanline 0x1FF) ∧
    decodeAt .generic 0x22000000FFFFFFFF = some (.hostAdvance 0xFFFFFFFF) ∧
    decodeAt .generic 0x2210000000000000 = some .hostSync := by decide

/-- R123, R125. -/
theorem test_decode_internal :
    decodeAt .generic 0x3014000000000000 = some .coreStepM ∧
    decodeAt .generic 0x3018000000000000 = some .coreStepS ∧
    decodeAt .generic 0x3020000000000000 = some (.syncResolve .h) ∧
    decodeAt .generic 0x302C000000000000 = some (.syncResolve .a) ∧
    decodeAt .generic 0x303C000000000000 = some .audioStep ∧
    decodeAt .generic 0x310C000000000000 = some .pwmTimerStep ∧
    decodeAt .generic 0x311C000000000000 = some .sampleTick ∧
    decodeAt .generic 0x3124000000001ABC = some (.fifoWrite .m .r 0xABC) ∧
    decodeAt .generic 0x313C000000001000 = some (.fifoRead .r) ∧
    decodeAt .generic 0x314C000000000000 = some (.fifoDrain .l) ∧
    decodeAt .generic 0x320C000000000000 = some .dreqStep ∧
    decodeAt .generic 0x328C000000000000 = some .autofillStep ∧
    decodeAt .generic 0x330800000000000C = some (.irqRaise .s .s .vres) ∧
    decodeAt .generic 0x3314000000000000 = some .irqQueryM ∧
    decodeAt .generic 0x3318000000000000 = some .irqQueryS ∧
    decodeAt .generic 0x3324000000000000 = some (.irqDispatchM .pwm) ∧
    decodeAt .generic 0x3328000000000001 = some (.irqDispatchS .cmd) ∧
    decodeAt .generic 0x3400000000000000 = some .latchCommit ∧
    decodeAt .generic 0x341C000000000000 = some (.fbCommit .a) ∧
    decodeAt .generic 0x3424000000000001 = some (.selectFb .m true) := by decide

/-- V70, R129, R133: words that spell no operation. -/
theorem test_decode_refusals :
    decode 0x1180000040200001 = none ∧ decode 0x1381000040300185 = none ∧ decode 0x0000000000000000 = none ∧
    decode 0x4000000000000000 = none ∧ decode 0x2FF0000000000000 = none ∧ decode 0x2010000100000000 = none ∧
    decode 0x2010000000000002 = none ∧ decode 0x3010000000000000 = none ∧ decode 0x3300000000000005 = none := by decide

/-- V10, V70 and log entry 2: a bus word is taken as its register or window row, an external one as its generic row. -/
theorem test_decode_preference :
    decode 0x1380000040300185 = some (.pwmctlWr .h .word 0x0185) ∧
    decode 0x118000A000000000 = some (.rd16 .h 0xA00000) := by decide

/-! ### One step on a small state -/

/-- The next state, if the operation completes. -/
def after (i : Instr) (s : State) : Option State :=
  match exec i s with
  | .next t => some t
  | .fault _ => none
  | .refused _ => none

/-- What the operation returned, if it completes. -/
def resultOf (i : Instr) (s : State) : Option OpResult := (after i s).map State.result

/-- The reset state with these bytes listed. -/
def withMem (m : Memory) : State := { State.reset with mem := m }

/-- The reset state with the cores running. -/
def running : State := { State.reset with io := { State.reset.io with adapterReset := false } }

/-- The reset state with the master in its turn. -/
def masterTurn : State := { State.reset with token := .m }

/-- The reset state with a transfer of `n` words active. -/
def transfer (vram : Bool) (n : BitVec 16) (m : Memory) : State := { State.reset with
  mem := m
  dreq := { vram := vram, active := true, dma := true, source := 0x030000, target := 0x01FFFF, length := n, fifo := [] } }

/-- The reset state with a fill of `n` words active. -/
def fill (n : BitVec 8) : State := { State.reset with
  vdp := { State.reset.vdp with autofillActive := true, autofillRemaining := n, autofillData := 0x2222 } }

/-- The reset state with these interrupt bits on the master. -/
def masterIrq (enable active : SourceBits) : State := { State.reset with
  cores := { State.reset.cores with m := { State.reset.cores.m with irq := ⟨enable, active⟩ } } }

/-- `SDRAM` words 0 and 1 of V11. -/
def sdramV11 : State := withMem [(0x300000, 0x12), (0x300001, 0x34), (0x300002, 0x56), (0x300003, 0x78)]

/-- V11. -/
theorem test_rd8u : resultOf (.rd8u .h 0x60000) sdramV11 = some (.bus 0x1200 0) := by decide
theorem test_rd8l : resultOf (.rd8l .h 0x60001) sdramV11 = some (.bus 0x0034 0) := by decide
/-- V13: bit 0 of the address is ignored. -/
theorem test_rd16_odd : resultOf (.rd16 .h 0x60003) sdramV11 = some (.bus 0x5678 0) := by decide
theorem test_rd8u_odd : resultOf (.rd8u .h 0x60001) sdramV11 = some (.bus 0x1200 0) := by decide
/-- V12: lane merge, through the read of the stored word. -/
theorem test_wr8u_merges : ∃ t, exec (.wr8u .m 0x60002 0x12FF) sdramV11 = .next t ∧ readWord t .sdram 1 = 0x1278 := by
  have e : targetOf .m 0x60002 = .sdram 1 := by decide
  refine ⟨_, transactWrite_eq .m .upper (targetOf .m 0x60002) 0x12FF sdramV11 (mayIssue_core .m _), ?_⟩
  rw [e]
  exact (readWord_writeWord_same sdramV11 .sdram 1 .upper 0x12FF).trans (by decide)
theorem test_wr8l_merges : ∃ t, exec (.wr8l .m 0x60003 0xFF34) sdramV11 = .next t ∧ readWord t .sdram 1 = 0x5634 := by
  have e : targetOf .m 0x60003 = .sdram 1 := by decide
  refine ⟨_, transactWrite_eq .m .lower (targetOf .m 0x60003) 0xFF34 sdramV11 (mayIssue_core .m _), ?_⟩
  rw [e]
  exact (readWord_writeWord_same sdramV11 .sdram 1 .lower 0xFF34).trans (by decide)
/-- V15. -/
theorem test_busNoLane : exec (.busNoLane .h .write 0x60000 0x5555) State.reset =
    .fault (.busContractViolation .h .write 0x60000) := rfl
/-- V16: a decode miss is logged with bit 0 cleared and its lanes. -/
theorem test_external_write : (after (.wr8l .s 0x2000001 0x77) State.reset).map State.extLog =
    some [⟨.write, .lower, 0x2000000, 0x77⟩] := by decide
/-- V17: the slave's boot ROM repeats every 512 words. -/
theorem test_bootrom_mirror : resultOf (.rd16 .s 0x402) State.reset = resultOf (.rd16 .s 0x002) State.reset := rfl
/-- V18. -/
theorem test_reserved : resultOf (.reservedRd .h .word 0x038) State.reset = some (.bus 0 0) ∧
    resultOf (.rd16 .h 0x41FE) State.reset = some (.bus 0 0) := by decide
/-- V19 (a): a host read of the window during a fill waits, one of SDRAM does not. -/
theorem test_contention : resultOf (.vramRd .h .word 0) { fill 2 with mem := [(0x200000, 0x11), (0x200001, 0x11)] } =
    some (.bus 0x1111 Config.fbWait) := rfl

/-- V35: through the lower lane the five enables of the writing core. -/
theorem test_irqen : (after (.irqenWr .m .lower 0xFF03) State.reset).map (fun t => (t.cores.m.irq.enable, t.cores.s.irq.enable)) =
    some (⟨true, true, false, false, false⟩, .none) := by decide
theorem test_irqen_host : (after (.irqenWr .h .word 0x1F) State.reset).map (fun t => t.cores.m.irq.enable) = some .none := by decide
/-- V31, V33. -/
theorem test_irqack : (after (.irqackWr .m .word 8) (masterIrq .none ⟨false, false, true, true, false⟩)).map
    (fun t => t.cores.m.irq.active) = some ⟨false, false, true, false, false⟩ := by decide
theorem test_irqack_upper : (after (.irqackWr .m .upper 0xFFFF) (masterIrq .none ⟨false, false, true, true, false⟩)).map
    (fun t => t.cores.m.irq.active) = some ⟨false, false, true, true, false⟩ := by decide
/-- V30. -/
theorem test_irqstat : resultOf (.irqstatRd .m .word) (masterIrq .none ⟨false, false, false, true, false⟩) =
    some (.bus 0x0008 0) := by decide
/-- V34. -/
theorem test_cmdreq : (after (.cmdreqWr .s .word 1) State.reset).map
    (fun t => (t.cores.m.irq.active.cmd, t.cores.s.irq.active.cmd, cmdreqWord t)) = some (true, false, 1) := by decide
/-- V31: the answer of highest level. -/
theorem test_irqQuery : resultOf .irqQueryM (masterIrq ⟨false, false, true, true, false⟩ ⟨true, true, true, true, true⟩) =
    some (.query (some .vint)) := by decide
theorem test_irqQuery_none : resultOf .irqQueryS (masterIrq ⟨true, true, true, true, true⟩ ⟨true, true, true, true, true⟩) =
    some (.query none) := by decide
/-- V30: `IRQ_RAISE` of core M, source 3. -/
theorem test_irqRaise : (after (.irqRaise .h .m .vint) State.reset).map (fun t => (t.cores.m.irq.active, t.cores.s.irq.active)) =
    some (⟨false, false, false, true, false⟩, .none) := by decide
/-- V32: the vector of vint is the long at 0x118 of the core's own boot ROM. -/
theorem test_irqDispatch : (after (.irqDispatchM .vint) State.reset).map (fun t => t.cores.m.regs.pc) =
    some (memRead .m 0x118 .long State.reset).1 := rfl

/-- V55. -/
theorem test_adapter : (after (.adapterWr .h .word 0xFFFD) State.reset).map (fun t => adapterWord t.io) = some 0x003D := by decide
theorem test_adapter_read : resultOf (.adapterRd .h .word) State.reset = some (.bus 0x0002 0) := by decide
/-- V56: the reset edge reloads the pc from the core's own boot ROM. -/
theorem test_adapter_edge : (after (.adapterWr .h .word 2) running).map (fun t => t.cores.s.regs.pc) =
    some (memRead .s 0 .long running).1 := rfl
/-- V57. -/
theorem test_hcounter : (after (.hcounterWr .h .word 0x55) State.reset).map (fun t => t.io.hcounter) = some 0 := by decide
/-- V58. -/
theorem test_mbox0 : (after (.mbox0Wr .s .lower 0x0011) { State.reset with mailbox := State.reset.mailbox.set 0 0xBEEF }).map
    (fun t => t.mailbox[0]) = some 0xBE11 := by decide
theorem test_mbox7 : (after (.mbox7Wr .m .word 0xF00D) State.reset).map (fun t => (t.mailbox[6], t.mailbox[7])) =
    some (0, 0xF00D) := by decide

/-- V44. -/
theorem test_pwmctl : (after (.pwmctlWr .h .word 0x0185) State.reset).map (fun t => (pwmctlWord t.pwm, t.pwm.periods)) =
    some (0x0185, 1) := by decide
theorem test_pwmctl_upper : (after (.pwmctlWr .h .upper 0xF0FF) State.reset).map
    (fun t => (pwmctlWord t.pwm, t.pwm.periods, t.pwm.counter)) = some (0, 16, 0) := by decide
/-- V45. -/
theorem test_pwmcyc : (after (.pwmcycWr .h .word 0xFABC) State.reset).map (fun t => t.pwm.cycle) = some 0xABC := by decide
/-- V41. -/
theorem test_pwml_overflow : (after (.pwmlWr .h .word 0xFFFF) { State.reset with
    pwm := { State.reset.pwm with fifo := ⟨[3, 4, 0x800], []⟩ } }).map (fun t => t.pwm.fifo.l) = some [4, 0x800, 0xFFF] := by decide
theorem test_pwml_byte : (after (.pwmlWr .h .lower 7) State.reset).map (fun t => t.pwm.fifo.l) = some [] := by decide
/-- V42. -/
theorem test_fifoRead : resultOf (.fifoRead .l) { State.reset with pwm := { State.reset.pwm with fifo := ⟨[5], []⟩ } } =
    some (.sample 5 true) := by decide
theorem test_fifoRead_empty : resultOf (.fifoRead .l) { State.reset with pwm := { State.reset.pwm with last := ⟨5, 0⟩ } } =
    some (.sample 5 false) := by decide
/-- V43. -/
theorem test_fifoDrain : (after (.fifoDrain .l) { State.reset with pwm := { State.reset.pwm with fifo := ⟨[1, 2, 3], []⟩ } }).map
    (fun t => (t.result, t.pwm.fifo.l, t.pwm.last.l)) = some (.sample 3 true, [], 3) := by decide
/-- V41: the trace word of a write by M to the right channel. -/
theorem test_fifoWrite : (after (.fifoWrite .m .r 0xFFF) State.reset).map (fun t => t.pwm.fifo.r) = some [0xFFF] := by decide
/-- V47: lmode 2, rmode 3: one pair, the left FIFO emptied and the right one untouched, `pwm` raised. -/
theorem test_sampleTick : (after .sampleTick { State.reset with pwm := { State.reset.pwm with
    lmode := 2, rmode := 3, dreqIRQ := true, fifo := ⟨[1, 2, 3], [7]⟩ } }).map
    (fun t => (t.audioOut.length, t.pwm.last, t.pwm.fifo, t.cores.m.irq.active.pwm, t.cores.s.irq.active.pwm)) =
    some (1, ⟨3, 0⟩, ⟨[], [7]⟩, true, true) := by decide
/-- V48: the filter from its state after three inputs of 100, and after two of -2048. -/
theorem test_filter :
    defaultDcFilter.apply (filterState 100 98) (-2048) = (filterState (-2048) (-2051), -2051) ∧
    defaultDcFilter.apply (filterState (-2048) (-2043)) 2047 = (filterState 2047 2059, 2059) ∧
    defaultDcFilter.apply (filterState 2047 (-2048)) 0 = (filterState 0 (-4087), -4087) := by decide
/-- R306: the output is held to 16 bits, the state is not; the shift rounds down. -/
theorem test_filter_clamps :
    defaultDcFilter.apply (filterState 0 40000) 0 = (filterState 0 39843, 0x7FFF) ∧
    defaultDcFilter.apply (filterState 0 (-40000)) 0 = (filterState 0 (-39844), 0x8000) ∧
    defaultDcFilter.apply (filterState 0 (-1)) 0 = (filterState 0 (-1), 0xFFFF) := by decide
/-- V49: the counter past the period emits and clears. -/
theorem test_pwmTimerStep : (after .pwmTimerStep { State.reset with pwm := { State.reset.pwm with
    cycle := 0xFFF, periods := 2, counter := 5 } }).map (fun t => (t.pwm.cycle, t.pwm.counter, t.audioOut.length)) =
    some (0, 0, 1) := by decide

/-- V50. -/
theorem test_dreqctl : (after (.dreqctlWr .h .word 3) { State.reset with dreq := { State.reset.dreq with length := 4 } }).map
    (fun t => dreqctlWord t.dreq) = some 7 := by decide
theorem test_dreqctl_length0 : (after (.dreqctlWr .h .word 3) State.reset).map (fun t => dreqctlWord t.dreq) = some 1 := by decide
/-- V51. -/
theorem test_dreqsrch : (after (.dreqsrchWr .h .word 0xFF03) State.reset).map (fun t => t.dreq.source) = some 0x030000 := by decide
theorem test_dreqdstl : (after (.dreqdstlWr .h .word 0x8000) State.reset).map (fun t => t.dreq.target) = some 0x008000 := by decide
theorem test_dreqlen_active : (after (.dreqlenWr .h .word 9) (transfer false 4 [])).map (fun t => t.dreq.length) = some 4 := by decide
/-- V53: the last word of a VRAM-fill transfer, with a swap queued behind it. -/
theorem test_dreqStep : (after .dreqStep { transfer true 1 [] with vdp := { State.reset.vdp with fbReq := true } }).map
    (fun t => (t.dreq.target, t.dreq.length, t.dreq.active, t.fbSel)) = some (0x020000, 0, false, true) := by decide

/-- V25: the write reaches the live registers, not the latch. -/
theorem test_vdpmode : (after (.vdpmodeWr .h .word 0x00C2) State.reset).map (fun t => (vdpmodeWord t.vdp, t.vdp.latch)) =
    some (0x00C2, .reset) := by decide
/-- R244: the fill starts with AFLEN words; with AFLEN 0 nothing starts. -/
theorem test_afdata : (after (.afdataWr .h .word 0x2222) { State.reset with vdp := { State.reset.vdp with autofillLength := 2 } }).map
    (fun t => (t.vdp.autofillActive, t.vdp.autofillRemaining, t.vdp.autofillData)) = some (true, 2, 0x2222) := by decide
theorem test_afdata_length0 : (after (.afdataWr .h .word 0x2222) State.reset).map (fun t => t.vdp.autofillActive) = some false := by decide
/-- V40: the last word of a fill, with a swap queued behind it. -/
theorem test_autofillStep : (after .autofillStep { fill 1 with vdp := { (fill 1).vdp with
    autofillAddress := 0xFFFF, fbReq := true } }).map (fun t => (t.vdp.autofillAddress, t.vdp.autofillActive, t.fbSel)) =
    some (0, false, true) := by decide
/-- V53: queued while the engine is engaged, done at once while it is not. -/
theorem test_fbctl_engaged : (after (.fbctlWr .h .word 1) (transfer true 1 [])).map (fun t => (t.fbSel, fbctlWord t)) =
    some (false, 0x8012) := by decide
theorem test_fbctl : (after (.fbctlWr .h .word 1) State.reset).map (fun t => (t.fbSel, fbctlWord t)) = some (true, 0x8011) := by decide
/-- V28: the third rising edge with HPERIOD 2. -/
theorem test_hblank : (after (.hblank true) { State.reset with io := { State.reset.io with hperiod := 2, hcounter := 2 } }).map
    (fun t => (t.io.hcounter, t.cores.m.irq.active.hint, fbctlWord t)) = some (0, true, 0xC000) := by decide
/-- V25: the rising edge copies the live registers and raises `vint`. -/
theorem test_vblank : (after (.vblank true) { State.reset with vdp := { State.reset.vdp with
    vblank := false, live := ⟨.direct, true, true, false⟩ } }).map (fun t => (t.vdp.latch, t.cores.s.irq.active.vint)) =
    some (⟨.direct, true, true, false⟩, true) := by decide
/-- V22: direct mode, pixel 0 of line 10. -/
theorem test_scanline_direct : (after (.scanline 10) { withMem [(0x100014, 0x02), (0x100015, 0x00), (0x100400, 0x7F), (0x100401, 0xFF)] with
    vdp := { State.reset.vdp with latch := ⟨.direct, false, false, false⟩ } }).map (fun t => t.pixels[3]?) =
    some (some 0x17FFF) := by decide
/-- V24: line 224 of a 224-line picture is not plotted. -/
theorem test_scanline_beyond : (after (.scanline 224) { State.reset with
    vdp := { State.reset.vdp with latch := ⟨.direct, false, false, false⟩ } }).map (fun t => t.pixels[0]?) = some (some 0) := by decide

/-- V7: a held core consumes one cycle. -/
theorem test_coreStep_held : (after .coreStepM masterTurn).map (fun t => (t.clk.m, t.cores.m.regs, t.token)) =
    some (1, masterTurn.cores.m.regs, .m) := rfl
/-- R154, R341: the core whose own write makes the edge of `adapterReset` keeps the registers loaded at it, here also
where it clears the bit again (log entry 8); writing 1 while the bit is 1 is no edge. -/
theorem test_reloadsDuring (r : CoreRegs) :
    reloadsDuring .m (.write 0x4006 .word 2 (fun _ => .done r 0)) running = true ∧
    reloadsDuring .m (.write 0x4006 .word 2 (fun _ => .write 0x4006 .word 0 (fun _ => .done r 0))) running = true ∧
    reloadsDuring .m (.write 0x4007 .byte 2 (fun _ => .done r 0)) running = true ∧
    reloadsDuring .m (.write 0x4006 .word 0 (fun _ => .done r 0)) running = false ∧
    reloadsDuring .m (.write 0x4006 .word 2 (fun _ => .done r 0)) State.reset = false := ⟨rfl, rfl, rfl, rfl, rfl⟩
theorem test_endRegs (r : CoreRegs) : endRegs .m true r masterTurn = masterTurn ∧
    (endRegs .m false r masterTurn).cores.m.regs = r := ⟨rfl, rfl⟩
/-- V5, V6. -/
theorem test_syncResolve_yields : (after (.syncResolve .m) { masterTurn with clk := ⟨0, 6, 0, 0⟩, pend := ⟨[], [.s, .a], [], []⟩ }).map
    (fun t => (t.token, t.pend.m)) = some (.s, [.s, .a]) := by decide
theorem test_syncResolve_drops : (after (.syncResolve .m) { masterTurn with clk := ⟨0, 6, 6, 0⟩, pend := ⟨[], [.s, .a], [], []⟩ }).map
    (fun t => (t.token, t.pend.m)) = some (.m, [.a]) := by decide
/-- R28, U13: a token holder that does not exist has no step, a partner queued or not. -/
theorem test_syncResolve_not_alive :
    exec (.syncResolve .m) { masterTurn with aliveM := false, pend := ⟨[], [.s], [], []⟩ } = .refused .notEnabled ∧
    step { masterTurn with aliveM := false, pend := ⟨[], [.s], [], []⟩ } = .refused .noOperation := ⟨rfl, rfl⟩
/-- V40, without the units. -/
theorem test_audioStep : (after .audioStep { State.reset with token := .a }).map (fun t => (t.clk.a, t.pend.a, t.pwm.cycle, t.token)) =
    some (1, [.m, .s, .h], 1, .a) := by decide
/-- V9. -/
theorem test_hostAdvance : (after (.hostAdvance 7) State.reset).map (fun t => t.clk) = some ⟨7, 0, 0, 0⟩ := by decide
theorem test_hostSync : (after .hostSync State.reset).map (fun t => t.pend.h) = some [.m, .s, .a] := by decide
/-- V62. -/
theorem test_restart : (after .restart { State.reset with
    clk := ⟨0, 7, 0, 0⟩, pend := ⟨[], [.s], [], []⟩, io := { State.reset.io with resetEnable := true } }).map
    (fun t => (t.pend.m, t.clk.m, t.cores.m.irq.active.vres, t.cores.s.irq.active.vres)) = some ([], 7, true, true) := by decide
/-- V63. -/
theorem test_unload : (after .unload State.reset).map (fun t => (t.aliveM, t.aliveS, t.aliveA, t.token)) =
    some (false, false, false, .h) := by decide
/-- V60, V61: `POWER` empties the units; a warm one keeps what is listed. -/
theorem test_power_warm : (after (.power true) { sdramV11 with fbSel := true, clk := ⟨5, 0, 0, 0⟩ }).map
    (fun t => (t.fbSel, t.clk, readWord t .sdram 0)) = some (false, ⟨0, 0, 0, 0⟩, 0x1234) := by decide
theorem test_power_cold : (after (.power false) { sdramV11 with mailbox := State.reset.mailbox.set 0 1 }).map
    (fun t => (t.mailbox[0], t.mem, t.powerOns)) = some (0, [], 1) := by decide

/-! ### Where a presented word may be performed -/

/-- Inside this operation, with these words presented. -/
def insideWith (op : Operation) (ws : List OpWord) : State := { State.reset with
  token := op.agent, inside := some op, ops := ws }

/-- R204: `M.RD16 MBOX0` is refused at a boundary, inside another core's step and in a synchronisation, and performed
inside M's normal step. -/
theorem test_core_word :
    step { State.reset with ops := [0x1580000040200000] } = .refused .notEnabled ∧
    step (insideWith (.normalStep .s) [0x1580000040200000]) = .refused .notEnabled ∧
    step { insideWith (.normalStep .m) [0x1580000040200000] with pend := ⟨[], [.s], [], []⟩ } = .refused .notEnabled ∧
    step (insideWith (.normalStep .m) [0x1580000040200000]) = exec (.mbox0Rd .m .word) (insideWith (.normalStep .m) []) :=
  ⟨rfl, rfl, rfl, rfl⟩
/-- R204: `DREQ.RD16 MBOX0` is refused at a boundary, elsewhere in `AUDIO_STEP` and while no transfer is active. -/
theorem test_dreq_word :
    step { State.reset with ops := [0x1D80000040200000] } = .refused .notEnabled ∧
    step { insideWith .audioStep [0x1D80000040200000] with dreq := (transfer false 2 []).dreq } = .refused .notEnabled ∧
    step (insideWith .dreqStep [0x1D80000040200000]) = .refused .notEnabled ∧
    step { insideWith .dreqStep [0x1D80000040200000] with dreq := (transfer false 2 []).dreq } =
      exec (.mbox0Rd .dreq .word) { insideWith .dreqStep [] with dreq := (transfer false 2 []).dreq } :=
  ⟨rfl, rfl, rfl, rfl⟩
/-- R125: `IRQ_RAISE` by A; `FIFO_WRITE` by A, which only `DREQ_STEP` calls; a host event inside an operation. -/
theorem test_sub_word :
    step { State.reset with ops := [0x330C00000000000B] } = .refused .notEnabled ∧
    step (insideWith .audioStep [0x330C00000000000B]) = exec (.irqRaise .a .s .vint) (insideWith .audioStep []) ∧
    step (insideWith .audioStep [0x312C000000001FFF]) = .refused .notEnabled ∧
    step (insideWith .host [0x2100000000000001]) = .refused .notEnabled := ⟨rfl, rfl, rfl, rfl⟩
/-- The host's port: the very next step runs the word. -/
theorem test_withFetchWord :
    step (State.reset.withFetchWord 64 0x1580000040200000) = exec (.mbox0Rd .m .word) (insideWith (.normalStep .m) []) ∧
    step (State.reset.withFetchWord 64 0x3014000000000000) = exec .coreStepM { State.reset with token := .m } :=
  ⟨rfl, rfl⟩

/-! ### Witnesses: states and operands that meet the hypotheses of the obligations

The state is the reset state or one built above; the boundary values of each clause are named beside it. -/

/-- The reset state with these words presented. -/
def presented (ws : List OpWord) : State := { State.reset with ops := ws }

/-- The reset state running, with the slave in its turn. -/
def slaveTurn : State := { running with token := .s }

/-- The reset state with the audio engine in its turn. -/
def audioTurn : State := { State.reset with token := .a }

/-- A transfer of the word 1 from SDRAM to CMDREQ. -/
def commanding : State :=
  let s := transfer false 1 [(0x300000, 0x00), (0x300001, 0x01)]
  { s with dreq := { s.dreq with source := 0x030000, target := 0x002006 } }

theorem hostTurn_reset : HostTurn State.reset := ⟨rfl, rfl⟩
theorem mayIssue_reset (i : Initiator) : MayIssue i State.reset := fun _ => ⟨rfl, rfl⟩

/-- For the statements whose only hypothesis is that the initiator may issue the transaction: the host in its turn, and
a core or DREQ at any time. They are GenericWritesComplete, SdramWindowReadsAndMerges, PaletteWindowReadsAndMerges,
VramBootRomAndReservedWindows, InterruptRegistersReadTheOwnController, InterruptRegisterWritesAreBanked,
CmdreqRaisesCmdOnTheNamedCores, PwmRegistersReadTheirFields, DreqRegistersReadTheCurrentValues and
VdpRegistersReadTheLiveValues. -/
theorem witness_MayIssue : MayIssue .h State.reset ∧ MayIssue .m masterTurn ∧ MayIssue .s State.reset ∧
    MayIssue .dreq masterTurn :=
  ⟨fun _ => ⟨rfl, rfl⟩, mayIssue_core .m _, mayIssue_core .s _, mayIssue_dreq _⟩

/-- The first and the last address of the windows that two of these statements name. -/
theorem witness_windows :
    0x60000 ≤ (0x60000 : Long).toNat ∧ (0x9FFFF : Long).toNat < 0xA0000 ∧
    0x4200 ≤ (0x4200 : Long).toNat ∧ (0x43FF : Long).toNat < 0x4400 := by decide

theorem witness_EncodedOperationDecodesBack :
    (Instr.busNoLane .m .read 0x60000 0).wellFormed = true ∧ (Instr.busNoLane .m .write 0 0xFFFF).wellFormed = true ∧
    (Instr.reservedRd .h .word 0x00E).wellFormed = true ∧ (Instr.reservedRd .h .word 0x1FF).wellFormed = true ∧
    (Instr.externalRd .h .word 0x3FFF).wellFormed = true ∧ (Instr.externalWr .s .word 0x4400 1).wellFormed = true ∧
    (Instr.externalWr .s .word 0x3FFFF 1).wellFormed = true ∧ (Instr.externalRd .m .word 0xA0000).wellFormed = true ∧
    (Instr.externalRd .m .lower 0xFFFFFFFF).wellFormed = true := by decide

/-- The odd byte address of a register: the encoder writes the even one. -/
theorem witness_DecodedOperationEncodesBack :
    decodeAt .target 0x1180000040210000 = some (.mbox0Rd .h .word) ∧ encode (.mbox0Rd .h .word) = 0x1180000040200000 ∧
    targetOf .h 0x4021 = .reg (.mbox 0) ∧ decodeAt .generic 0x1180000040210000 = some (.rd16 .h 0x4021) ∧
    encode (.rd16 .h 0x4021) = 0x1180000040210000 := by decide

/-- Words of each format, the bus word with lanes and without. -/
theorem witness_DecoderAcceptsExactlyTheTables :
    ValidBus 0x1180000040210000 ∧ ValidBus 0x12000000FFFFFFFF ∧ ValidEvent 0x21200000000001FF ∧
    ValidInternal 0x330C00000000000C := by
  refine ⟨?_, ?_, ⟨by decide, by decide, (0x12, 0x1FF), by decide, by decide, by decide⟩,
    ⟨by decide, by decide, ⟨(0x30, [0, 1, 2, 3], 0xF), by decide, by decide, by decide, by decide⟩, fun _ => by decide⟩⟩
  · unfold ValidBus; decide
  · unfold ValidBus; decide

theorem witness_GenericAndTargetRowsAgree :
    decodeAt .generic 0x1380000040300185 = some (.wr16 .h 0x4030 0x0185) ∧
    decodeAt .target 0x1380000040300185 = some (.pwmctlWr .h .word 0x0185) := by decide

/-- A decoded word at both levels, one inside an operation and one that may not be performed, an invalid word, no word,
and each of the four enabled steps. -/
theorem witness_StepRunsTheDecodedOperation :
    (HostTurn (presented [0x1380000040300185]) ∧
      decodeAt .generic 0x1380000040300185 = some (.wr16 .h 0x4030 0x0185) ∧
      decodeAt .target 0x1380000040300185 = some (.pwmctlWr .h .word 0x0185) ∧
      mayPerform (instrPlace (.pwmctlWr .h .word 0x0185)) (presented [0x1380000040300185]) = true) ∧
    ((insideWith (.normalStep .m) [0x1580000040200000]).inside ≠ none ∧
      decode 0x1580000040200000 = some (.mbox0Rd .m .word) ∧
      mayPerform (instrPlace (.mbox0Rd .m .word)) (insideWith (.normalStep .m) [0x1580000040200000]) = true ∧
      mayPerform (instrPlace (.mbox0Rd .m .word)) (presented [0x1580000040200000]) = false) ∧
    (HostTurn (presented [0]) ∧ decode 0 = none) ∧ (HostTurn State.reset ∧ State.reset.ops = []) ∧
    ({ masterTurn with pend := ⟨[], [.s], [], []⟩ } : State).pend.get .m = .s :: [] ∧
    (masterTurn.inside = none ∧ masterTurn.alive masterTurn.token = true ∧ masterTurn.pend.get masterTurn.token = [] ∧ masterTurn.token = .m) ∧
    (slaveTurn.inside = none ∧ slaveTurn.alive slaveTurn.token = true ∧ slaveTurn.pend.get slaveTurn.token = [] ∧ slaveTurn.token = .s) ∧
    (audioTurn.inside = none ∧ audioTurn.alive audioTurn.token = true ∧ audioTurn.pend.get audioTurn.token = [] ∧ audioTurn.token = .a) :=
  ⟨⟨⟨rfl, rfl⟩, by decide, by decide, rfl⟩, ⟨nofun, by decide, rfl, rfl⟩, ⟨⟨rfl, rfl⟩, by decide⟩, ⟨⟨rfl, rfl⟩, rfl⟩,
    rfl, ⟨rfl, rfl, rfl, rfl⟩, ⟨rfl, rfl, rfl, rfl⟩, rfl, rfl, rfl, rfl⟩

/-- The first and the last address of each clause. -/
theorem witness_AddressMapFollowsTheTable :
    (Initiator.core? .m = some .m ∧ targetOf .m 0 = .bootrom .m 0 ∧ targetOf .m 0x3FFF = .bootrom .m 1023) ∧
    targetOf .h 0x4000 = .reg .irqen ∧ targetOf .dreq 0x410B = .reg .fbctl ∧
    targetOf .h 0x400E = .reserved ∧ targetOf .h 0x401F = .reserved ∧ targetOf .h 0x4038 = .reserved ∧
    targetOf .h 0x403F = .reserved ∧ targetOf .h 0x404C = .reserved ∧ targetOf .h 0x40FF = .reserved ∧
    targetOf .h 0x410C = .reserved ∧ targetOf .h 0x41FF = .reserved ∧
    targetOf .s 0x4200 = .palette 0 ∧ targetOf .s 0x43FF = .palette 255 ∧
    targetOf .s 0x40000 = .vram 0 ∧ targetOf .s 0x5FFFF = .vram 65535 ∧
    targetOf .s 0x60000 = .sdram 0 ∧ targetOf .s 0x9FFFF = .sdram 131071 ∧
    (ExternalAt .h 0 ∧ ExternalAt .dreq 0x3FFF ∧ ExternalAt .m 0x4400 ∧ ExternalAt .m 0x3FFFF ∧
      ExternalAt .m 0xA0000 ∧ ExternalAt .m 0xFFFFFFFF) := by decide

theorem witness_NoLaneTransactionFaults :
    ValidBus 0x1200000600005555 ∧ (0x1200000600005555 : OpWord).extractLsb' 55 2 = 0 ∧
    HostTurn (presented [0x1200000600005555]) ∧
    exec (.busNoLane .h .write 0x60000 0x5555) State.reset = .fault (.busContractViolation .h .write 0x60000) :=
  ⟨by unfold ValidBus; decide, by decide, ⟨rfl, rfl⟩, rfl⟩

/-- Inside and outside the external space, at its edges; contended and not. -/
theorem witness_GenericReadsHaveNoSideEffect :
    MayIssue .h State.reset ∧ ¬ ExternalAt .m 0 ∧ ¬ ExternalAt .h 0x4000 ∧ ¬ ExternalAt .h 0x43FF ∧
    ¬ ExternalAt .h 0x40000 ∧ ¬ ExternalAt .h 0x9FFFF ∧ ExternalAt .h 0 ∧ ExternalAt .h 0x4400 ∧
    ExternalAt .h 0xA0000 ∧ ContendedAt .h 0x40000 (fill 1) ∧ ¬ ContendedAt .dreq 0x40000 (fill 1) :=
  ⟨mayIssue_reset _, by decide, by decide, by decide, by decide, by decide, by decide, by decide, by decide, by decide,
    by decide⟩

theorem witness_ExternalTransactionsPassThrough :
    MayIssue .h State.reset ∧ ExternalAt .h 0x3FFF ∧ MayIssue .m State.reset ∧ ExternalAt .m 0xA0000 :=
  ⟨mayIssue_reset _, by decide, mayIssue_reset _, by decide⟩

/-- First and last address of each region; the read of the word and the write both complete. -/
theorem witness_PlainMemoryReturnsTheLastWrite :
    PlainMemoryAt 0x4200 ∧ PlainMemoryAt 0x43FF ∧ PlainMemoryAt 0x40000 ∧ PlainMemoryAt 0x9FFFF ∧
    MayIssue .h sdramV11 ∧ MayIssue .m sdramV11 ∧
    exec (.rd16 .m 0x60001) sdramV11 = .next { sdramV11 with result := .bus 0x1234 0 } ∧
    ∃ t, exec (writeOn .upper .h 0x60000 0xABCD) sdramV11 = .next t :=
  ⟨by unfold PlainMemoryAt; decide, by unfold PlainMemoryAt; decide, by unfold PlainMemoryAt; decide,
    by unfold PlainMemoryAt; decide, fun _ => ⟨rfl, rfl⟩, mayIssue_core .m _, rfl, _, rfl⟩

/-- An odd address, a pair of registers, a long across the end of SDRAM (V14, R196), one that wraps at the top of the
address space; and the first and the last place of a long in SDRAM. -/
theorem witness_LongAccessIsTwoWordAccesses :
    (MayIssue .h State.reset ∧ MayIssue .m State.reset) ∧ (0x60003 : Long) &&& 0xFFFFFFFE = 0x60002 ∧
    (targetOf .m (0x4020 &&& 0xFFFFFFFE) = .reg (.mbox 0) ∧ targetOf .m ((0x4020 &&& 0xFFFFFFFE) + 2) = .reg (.mbox 1)) ∧
    (targetOf .m (0x9FFFF &&& 0xFFFFFFFE) = .sdram 131071 ∧
      targetOf .m ((0x9FFFF &&& 0xFFFFFFFE) + 2) = .external 0xA0000) ∧
    targetOf .m ((0xFFFFFFFF &&& 0xFFFFFFFE) + 2) = .bootrom .m 0 ∧
    (0x60000 ≤ (0x60000 : Long).toNat ∧ (0x60000 : Long).toNat < 0x9FFFE ∧ (0x60000 : Long).getLsbD 0 = false) ∧
    0x60000 ≤ (0x9FFFC : Long).toNat ∧ (0x9FFFC : Long).toNat < 0x9FFFE ∧ (0x9FFFC : Long).getLsbD 0 = false :=
  ⟨⟨mayIssue_reset _, mayIssue_reset _⟩, by decide, by decide, by decide, by decide, by decide, by decide⟩

theorem witness_IrqRaiseSetsOneActiveBit :
    ((masterIrq .none ⟨false, false, false, true, false⟩).cores.get .m).irq.active.get .vint = true := rfl

/-- A bit set by `IRQ_RAISE`, by an event, by a write of CMDREQ and by a transfer step to it; one cleared through
IRQACK. -/
theorem witness_InterruptBitsBelongToTheirConditions :
    (∃ t, exec (.irqRaise .h .m .vint) State.reset = .next t ∧ (State.reset.cores.get .m).irq.active.get .vint = false ∧
      (t.cores.get .m).irq.active.get .vint = true) ∧
    (∃ t, exec (.hblank true) State.reset = .next t ∧ (State.reset.cores.get .s).irq.active.get .hint = false ∧
      (t.cores.get .s).irq.active.get .hint = true) ∧
    (∃ t, exec (writeOn .lower .h 0x400D 2) State.reset = .next t ∧
      (State.reset.cores.get .s).irq.active.get .cmd = false ∧ (t.cores.get .s).irq.active.get .cmd = true) ∧
    (∃ t, exec .dreqStep commanding = .next t ∧ (commanding.cores.get .m).irq.active.get .cmd = false ∧
      (t.cores.get .m).irq.active.get .cmd = true) ∧
    (∃ t, exec (.irqackWr .m .word 8) (masterIrq .none ⟨false, false, false, true, false⟩) = .next t ∧
      ((masterIrq .none ⟨false, false, false, true, false⟩).cores.get .m).irq.active.get .vint = true ∧
      (t.cores.get .m).irq.active.get .vint = false) :=
  ⟨⟨_, rfl, rfl, rfl⟩, ⟨_, rfl, rfl, rfl⟩, ⟨_, rfl, rfl, rfl⟩, ⟨_, rfl, rfl, rfl⟩, ⟨_, rfl, rfl, rfl⟩⟩

/-- No edge because the bit is 1 already, and none because 0 is written. -/
theorem witness_IoRegistersReadAndStoreTheirFields :
    MayIssue .h State.reset ∧ Lanes.word ≠ .upper ∧ State.reset.io.adapterReset = true ∧ MayIssue .h running ∧
    (0x0001 : Word).getLsbD 1 = false := ⟨mayIssue_reset _, by decide, rfl, fun _ => ⟨rfl, rfl⟩, by decide⟩

theorem witness_AdapterResetEdgeReloadsBothCores :
    MayIssue .h running ∧ Lanes.lower ≠ .upper ∧ running.io.adapterReset = false ∧ (0x0002 : Word).getLsbD 1 = true :=
  ⟨fun _ => ⟨rfl, rfl⟩, by decide, rfl, by decide⟩

/-- The first and the last pair of slots. -/
theorem witness_MailboxIsLastWriterWins : ∃ t u : State,
    MayIssue .m State.reset ∧ t = (memWrite .m (0x4020 + 2 * BitVec.ofNat 32 (0 : Fin 7).val) .long 0xCAFEF00D State.reset).2 ∧
    u = (memWrite .m (0x4020 + 2 * BitVec.ofNat 32 (6 : Fin 7).val) .long 0xCAFEF00D State.reset).2 :=
  ⟨_, _, mayIssue_reset _, rfl, rfl⟩

theorem witness_PwmRegisterWrites : MayIssue .h State.reset ∧ Lanes.upper ≠ .word ∧ Lanes.word = .word :=
  ⟨mayIssue_reset _, by decide, rfl⟩

theorem witness_FifoKeepsTheNewestThree :
    (State.reset.pwm.fifo.get .l).length ≤ 3 ∧
    (({ State.reset with pwm := { State.reset.pwm with fifo := ⟨[1, 2, 3], []⟩ } } : State).pwm.fifo.get .l).length ≤ 3 := by
  decide

theorem witness_FifoReadHoldsTheLastSample :
    ({ State.reset with pwm := { State.reset.pwm with fifo := ⟨[5], []⟩ } } : State).pwm.fifo.get .l = 5 :: [] ∧
    State.reset.pwm.fifo.get .r = [] := ⟨rfl, rfl⟩

/-- One entry and three; below the period, at it and past it. -/
theorem witness_DrainAndTimerSteps :
    ({ State.reset with pwm := { State.reset.pwm with fifo := ⟨[1, 2, 3], [4]⟩ } } : State).pwm.fifo.get .l = [1, 2] ++ [3] ∧
    ({ State.reset with pwm := { State.reset.pwm with fifo := ⟨[1, 2, 3], [4]⟩ } } : State).pwm.fifo.get .r = [] ++ [4] ∧
    State.reset.pwm.fifo.get .l = [] ∧ State.reset.pwm.counter + 1 < State.reset.pwm.periods ∧
    ({ State.reset with pwm := { State.reset.pwm with counter := 15 } } : State).pwm.periods ≤ 15 + 1 ∧
    ({ State.reset with pwm := { State.reset.pwm with counter := 20 } } : State).pwm.periods ≤ 20 + 1 := by decide

theorem witness_DreqWritesTakeEffectWhileIdle :
    MayIssue .h State.reset ∧ State.reset.dreq.active = false ∧ Lanes.lower ≠ .upper ∧
    MayIssue .h (transfer false 4 []) ∧ (transfer false 4 []).dreq.active = true :=
  ⟨mayIssue_reset _, rfl, by decide, fun _ => ⟨rfl, rfl⟩, rfl⟩

/-- No transfer; the last word and an earlier one, in either mode. -/
theorem witness_DreqStepIsAReadAndAWrite :
    State.reset.dreq.active = false ∧ (transfer true 1 []).dreq.active = true ∧ (transfer true 1 []).dreq.fifo = [] ∧
    (transfer true 1 []).dreq.vram = true ∧ (transfer true 1 []).dreq.length = 1 ∧
    (transfer false 2 []).dreq.active = true ∧ (transfer false 2 []).dreq.fifo = [] ∧
    (transfer false 2 []).dreq.vram = false ∧ (transfer false 2 []).dreq.length ≠ 1 := by decide

/-- The source at the first and up to the last word of SDRAM; no step and all of them. -/
theorem witness_VramFillTransferMovesEveryWord :
    (transfer true 0x20 []).dreq.active = true ∧ (transfer true 0x20 []).dreq.dma = true ∧
    (transfer true 0x20 []).dreq.vram = true ∧ (transfer true 0x20 []).dreq.fifo = [] ∧
    0x30000 ≤ (transfer true 0x20 []).dreq.source.toNat ∧
    (transfer true 0x20 []).dreq.source.toNat + (transfer true 0x20 []).dreq.length.toNat ≤ 0x50000 ∧
    0x20 ≤ (transfer true 0x20 []).dreq.length.toNat ∧ (transfer true 0x20 []).dreq.length ≠ 0 ∧
    (0x4FFFF : BitVec 24).toNat + (1 : BitVec 16).toNat ≤ 0x50000 := by decide

theorem witness_VdpRegisterWrites :
    MayIssue .h State.reset ∧ Lanes.word ≠ .upper ∧ State.reset.vdp.autofillActive = false ∧ MayIssue .h (fill 1) ∧
    (fill 1).vdp.autofillActive = true := ⟨mayIssue_reset _, by decide, rfl, fun _ => ⟨rfl, rfl⟩, rfl⟩

theorem witness_FbCommitSwapsOnlyWhileDisengaged :
    MayIssue .h State.reset ∧ framebufferEngaged State.reset = false ∧ MayIssue .h (fill 1) ∧
    framebufferEngaged (fill 1) = true := ⟨mayIssue_reset _, rfl, fun _ => ⟨rfl, rfl⟩, rfl⟩

/-- A queued swap made by `FB_COMMIT`, and one made by the last step of a fill. -/
theorem witness_BankSwapsOnlyWhileDisengaged :
    (∃ t, exec (.fbCommit .h) { State.reset with vdp := { State.reset.vdp with fbReq := true } } = .next t ∧
      t.fbSel ≠ false) ∧
    (∃ t, exec .autofillStep { fill 1 with vdp := { (fill 1).vdp with fbReq := true } } = .next t ∧ t.fbSel ≠ false) :=
  ⟨⟨_, rfl, by decide⟩, ⟨_, rfl, by decide⟩⟩

/-- Level and edge of either blanking; the horizontal counter below the period and at it. -/
theorem witness_BlankingEdges :
    HostTurn State.reset ∧ State.reset.vdp.vblank = true ∧
    HostTurn { State.reset with vdp := { State.reset.vdp with vblank := false } } ∧ State.reset.vdp.hblank = false ∧
    State.reset.io.hperiod ≤ State.reset.io.hcounter ∧
    ({ State.reset.io with hperiod := 2, hcounter := 1 } : Io).hcounter < ({ State.reset.io with hperiod := 2 } : Io).hperiod :=
  ⟨⟨rfl, rfl⟩, rfl, ⟨rfl, rfl⟩, rfl, by decide, by decide⟩

/-- The three operations that change the latch. -/
theorem witness_LatchIsWrittenAtVblankOnly :
    (∃ t, exec .latchCommit { State.reset with vdp := { State.reset.vdp with live := ⟨.rle, true, false, false⟩ } } = .next t ∧
      t.vdp.latch ≠ State.reset.vdp.latch) ∧
    (∃ t, exec (.vblank true) { State.reset with
        vdp := { State.reset.vdp with vblank := false, live := ⟨.rle, true, false, false⟩ } } = .next t ∧
      t.vdp.latch ≠ State.reset.vdp.latch) ∧
    (∃ t, exec (.power true) { State.reset with vdp := { State.reset.vdp with latch := ⟨.rle, true, false, false⟩ } } = .next t ∧
      t.vdp.latch ≠ ⟨.rle, true, false, false⟩) :=
  ⟨⟨_, rfl, by decide⟩, ⟨_, rfl, by decide⟩, ⟨_, rfl, by decide⟩⟩

theorem witness_AutofillWritesEveryWord :
    (fill 255).vdp.autofillActive = true ∧ (fill 255).vdp.autofillRemaining ≠ 0 ∧
    0 ≤ (fill 255).vdp.autofillRemaining.toNat ∧ 255 ≤ (fill 255).vdp.autofillRemaining.toNat := by decide

/-- Lines 0 and 223 in a mode that plots, 224 beyond; a blank line. -/
theorem witness_ScanlinePlotsEachPixel :
    HostTurn State.reset ∧ State.reset.vdp.latch.mode = .blank ∧
    HostTurn { State.reset with vdp := { State.reset.vdp with latch := ⟨.rle, false, false, false⟩ } } ∧
    DisplayMode.rle ≠ .blank ∧ (223 : BitVec 9).toNat < 224 ∧ 224 ≤ (224 : BitVec 9).toNat ∧
    State.reset.pixels.length = 1280 :=
  ⟨⟨rfl, rfl⟩, rfl, ⟨rfl, rfl⟩, by decide, by decide, by decide, List.length_replicate⟩

/-- Held by `adapterReset`, and gated by a transfer. -/
theorem witness_HeldOrGatedCoreOnlyLetsTimePass :
    CoreTurn .m masterTurn ∧ masterTurn.io.adapterReset = true ∧
    CoreTurn .s { slaveTurn with dreq := (transfer false 1 []).dreq } ∧
    ({ slaveTurn with dreq := (transfer false 1 []).dreq } : State).dreq.active = true :=
  ⟨⟨rfl, rfl, rfl⟩, rfl, ⟨rfl, rfl, rfl⟩, rfl⟩

theorem witness_NormalCoreStepRunsOneInstruction :
    CoreTurn .s slaveTurn ∧ slaveTurn.io.adapterReset = false ∧ slaveTurn.dreq.active = false ∧ MemInv slaveTurn :=
  ⟨⟨rfl, rfl, rfl⟩, rfl, rfl, wf_nil _, nofun⟩

theorem witness_CoreStepLeavesTheOtherAgents :
    (∃ t, exec (coreStepOf .m) masterTurn = .next t) ∧ (∃ t, exec (coreStepOf .s) slaveTurn = .next t) :=
  ⟨⟨_, rfl⟩, ⟨_, rfl⟩⟩

/-- A partner behind; one level with the holder; one that does not exist. -/
theorem witness_SyncResolveYieldsToAPartnerBehind :
    masterTurn.token = .m ∧ masterTurn.alive .m = true ∧
    ({ masterTurn with pend := ⟨[], [.s], [], []⟩ } : State).pend.get .m = .s :: [] ∧
    (({ masterTurn with clk := ⟨0, 6, 5, 0⟩ } : State).alive .s = true ∧
      ({ masterTurn with clk := ⟨0, 6, 5, 0⟩ } : State).clk.get .s < ({ masterTurn with clk := ⟨0, 6, 5, 0⟩ } : State).clk.get .m) ∧
    ¬ (masterTurn.alive .s = true ∧ masterTurn.clk.get .s < masterTurn.clk.get .m) ∧
    ({ masterTurn with aliveS := false } : State).alive .s = false := by decide

/-- With neither unit active, and with both. -/
theorem witness_AudioStepRunsItsThreeParts :
    AudioTurn audioTurn ∧ audioTurn.dreq.active = false ∧ audioTurn.vdp.autofillActive = false ∧
    AudioTurn { audioTurn with dreq := (transfer false 2 []).dreq, vdp := (fill 2).vdp } :=
  ⟨⟨rfl, rfl, rfl⟩, rfl, rfl, ⟨rfl, rfl, rfl⟩⟩

theorem witness_HostSchedulerEvents :
    HostTurn State.reset ∧ State.reset.io.resetEnable = false ∧
    HostTurn { State.reset with io := { State.reset.io with resetEnable := true } } :=
  ⟨⟨rfl, rfl⟩, rfl, ⟨rfl, rfl⟩⟩

theorem witness_OperationsOutOfTurnAreRefused :
    ¬ HostTurn masterTurn ∧ ¬ HostTurn { State.reset with pend := ⟨[.m], [], [], []⟩ } ∧ ¬ CoreTurn .m State.reset ∧
    ¬ CoreTurn .m { masterTurn with aliveM := false } ∧ ¬ CoreTurn .m { masterTurn with pend := ⟨[], [.s], [], []⟩ } ∧
    ¬ AudioTurn State.reset ∧ State.reset.pend.get .h = [] ∧ State.reset.token ≠ .m ∧
    ({ masterTurn with aliveM := false } : State).alive .m = false ∧
    (decodeAt .generic 0x1580000040200000 = some (readOn .word .m 0x4020) ∧ ¬ (State.reset.inside = some (.normalStep .m) ∧ CoreTurn .m State.reset) ∧
      (insideWith (.normalStep .m) []).inside = some (.normalStep .m) ∧ CoreTurn .m (insideWith (.normalStep .m) [])) ∧
    (decodeAt .generic 0x1D80000040200000 = some (readOn .word .dreq 0x4020) ∧ State.reset.dreq.active = false) ∧
    (decodeAt .generic 0x1180000040200000 = some (readOn .word .h 0x4020) ∧ (insideWith (.normalStep .m) []).inside ≠ none) ∧
    decode 0x330C00000000000B = some (.irqRaise .a .s .vint) ∧ decode 0x3328000000000004 = some (.irqDispatchS .vres) ∧
    ValidEvent 0x2100000000000001 :=
  ⟨fun h => absurd h.1 (by decide), fun h => absurd h.2 (by decide), fun h => absurd h.1 (by decide),
    fun h => absurd h.2.1 (by decide), fun h => absurd h.2.2 (by decide), fun h => absurd h.1 (by decide), rfl, by decide, rfl, ⟨by decide, (fun h => absurd h.1 (by decide)), rfl, rfl, rfl, rfl⟩,
    ⟨by decide, rfl⟩, ⟨by decide, nofun⟩, by decide, by decide,
    ⟨by decide, by decide, (0x10, 1), by decide, by decide, by decide⟩⟩

/-- Any state, and the state before the first POWER. -/
theorem witness_PowerReinitialisesEverything :
    HostTurn { sdramV11 with clk := ⟨5, 0, 0, 0⟩ } ∧ HostTurn sdramV11.unpowered := ⟨⟨rfl, rfl⟩, rfl, rfl⟩

/-- Both invariants hold of any state that differs from the reset state in the token, `adapterReset` and the presented
words. -/
theorem inv_near_reset (t : Agent) (b : Bool) (ws : List OpWord) :
    Inv { State.reset with token := t, io := { State.reset.io with adapterReset := b }, ops := ws } where
  mem := ⟨wf_nil _, nofun⟩
  dreq := ⟨rfl, nofun, rfl⟩
  autofill := ⟨nofun, fun h => absurd rfl h⟩
  pwm := ⟨Nat.zero_le _, Nat.zero_le _, rfl, (by decide : (0 : BitVec 32) < 16)⟩
  coreM := ⟨rfl, rfl, .inl rfl, .inl rfl⟩
  coreS := ⟨rfl, rfl, .inl rfl, .inl rfl⟩
  holder := by cases t <;> rfl
  queues := fun x => by cases x <;> exact ⟨nofun, Nat.zero_le _⟩
  pixels := List.length_replicate
  held := fun _ _ c => by cases c <;> rfl

theorem skewInv_near_reset (t : Agent) (b : Bool) (ws : List OpWord) :
    SkewInv { State.reset with token := t, io := { State.reset.io with adapterReset := b }, ops := ws } where
  core := fun c _ _ => .inr (by cases c <;> exact Nat.zero_le _)
  audio := fun c _ _ => .inr (by cases c <;> exact Nat.zero_le _)
  host := fun c _ _ => .inr (by cases c <;> exact Nat.zero_le _)
  engine := fun p _ _ _ => .inr (by cases p <;> exact Nat.zero_le _)

/-- A presented word, and a core's step. -/
theorem witness_InvariantIsKeptByEveryStep :
    (Inv (presented [0x2210000000000000]) ∧ ∃ t, step (presented [0x2210000000000000]) = .next t) ∧
    (Inv slaveTurn ∧ ∃ t, step slaveTurn = .next t) :=
  ⟨⟨inv_near_reset .h true _, _, rfl⟩, ⟨inv_near_reset .s false [], _, rfl⟩⟩

theorem witness_SkewBoundIsKeptByEveryStep :
    SkewInv (presented [0x2210000000000000]) ∧
    (∀ w rest, internalStep (presented [0x2210000000000000]) = none →
      (presented [0x2210000000000000]).ops = w :: rest → decode w ≠ some .restart) ∧
    ∃ t, step (presented [0x2210000000000000]) = .next t ∧ ClocksRise (presented [0x2210000000000000]) t := by
  refine ⟨skewInv_near_reset .h true _, fun w rest _ h => ?_, _, rfl, fun k => Nat.le_refl _⟩
  obtain ⟨rfl, -⟩ := List.cons.inj h
  decide

theorem witness_SkewIsBoundedByTheThresholds :
    (Inv slaveTurn ∧ SkewInv slaveTurn ∧ CoreTurn .s slaveTurn) ∧
    (Inv audioTurn ∧ SkewInv audioTurn ∧ AudioTurn audioTurn) :=
  ⟨⟨inv_near_reset .s false [], skewInv_near_reset .s false [], rfl, rfl, rfl⟩,
    ⟨inv_near_reset .a true [], skewInv_near_reset .a true [], rfl, rfl, rfl⟩⟩

/-- The first and the last word of either ROM. -/
theorem witness_BootRomsNeverChange :
    (∃ t, exec (.power false) State.reset = .next t) ∧ 0 < Config.bootromWords .m ∧ 1023 < Config.bootromWords .m ∧
    511 < Config.bootromWords .s ∧ Inv State.reset ∧ ∃ t, step (presented [0x2210000000000000]) = .next t :=
  ⟨⟨_, rfl⟩, by decide, by decide, by decide, inv_near_reset .h true [], _, rfl⟩

end Sys2Proof.Tests
end

section
/-! # The family of the state (spec/10_state.md)

The rules of the state's operations that the proofs of this family use: memory and the boot ROMs, the writes of a
`MemWrite`, the sample tick. -/

namespace Sys2Proof.StateProofs
open Sys2Proof.Machine Sys2Proof.Laws

/- Elaborate these proofs one after the other. All at once, while the kernel still checks the text above, they can need
more threads than the check's limit on memory has room for. -/
set_option deprecated.oldSectionVars true

/-! ### Initiators and lanes -/

/-- The initiator of a core is that core. -/
theorem init_of_core? {i : Initiator} {x : CoreId} (h : i.core? = some x) : i = x.init := by
  cases i <;> cases h <;> rfl

theorem ne_upper_of_lower {l : Lanes} (h : l.l = true) : l ≠ .upper := by
  rintro rfl
  exact nomatch h

theorem lower_of_ne_upper {l : Lanes} (h : l ≠ .upper) : l.l = true := by
  cases l
  · rfl
  · exact absurd rfl h
  · rfl

/-! ### Memory -/

/-- No location of a boot ROM is listed: the ROMs read as their images. -/
def BootUnlisted (m : Memory) : Prop := ∀ e ∈ m, 0x8000 ≤ e.1

theorem Writable.above_boot {a : Nat} (h : Writable a) : 0x8000 ≤ a := by
  unfold Writable at h
  omega

theorem bootUnlisted_of_memInv {s : State} (h : MemInv s) : BootUnlisted s.mem :=
  fun e he => Writable.above_boot (h.writable e he)

theorem lookup_eq_none {m : Memory} {a : Nat} (h : ∀ e ∈ m, e.1 ≠ a) : Memory.lookup m a = none := by
  induction m with
  | nil => rfl
  | cons e rest ih =>
    obtain ⟨he, hrest⟩ := List.forall_mem_cons.mp h
    rw [Memory.lookup, if_neg he]
    exact ih hrest

theorem readByte_boot {s : State} (h : BootUnlisted s.mem) {a : Nat} (ha : a < 0x8000) :
    readByte s a = unlisted s.powerOns a := by
  have hnone : Memory.lookup s.mem a = none := lookup_eq_none fun e he => by have := h e he; omega
  rw [readByte, Memory.read, hnone]
  rfl

/-- Each boot ROM holds its boot image (10_state.md R32). -/
theorem readWord_boot {s : State} (h : BootUnlisted s.mem) (c : CoreId) {w : Nat} (hw : w < 0x2000) :
    readWord s (bootMem c) w = Config.bootImage c w := by
  have even : (2 * w) % 2 = 0 ∧ 2 * w / 2 = w := by omega
  have odd : (2 * w + 1) % 2 ≠ 0 ∧ (2 * w + 1) / 2 = w := by omega
  cases c
  · have bytes (k : Nat) (hk : k < 0x4000) :
        readByte s (MemId.bootM.loc k) = byteOfWord (Config.bootImage .m (k / 2)) k := by
      have e : MemId.bootM.loc k = k := Nat.zero_add k
      rw [e, readByte_boot h (by omega), unlisted, if_pos hk]
    show joinBytes (readByte s (MemId.bootM.loc _)) (readByte s (MemId.bootM.loc _)) = _
    rw [bytes _ (by omega), bytes _ (by omega), even.2, odd.2, byteOfWord, byteOfWord, if_pos even.1, if_neg odd.1,
      joinBytes_hi_lo]
  · have bytes (k : Nat) (hk : k < 0x4000) :
        readByte s (MemId.bootS.loc k) = byteOfWord (Config.bootImage .s (k / 2)) k := by
      have e : MemId.bootS.loc k = 0x4000 + k := rfl
      have parity : (0x4000 + k) % 2 = k % 2 := by omega
      rw [e, readByte_boot h (by omega), unlisted, if_neg (by omega), if_pos (by omega), Nat.add_sub_cancel_left,
        byteOfWord, byteOfWord, parity]
    show joinBytes (readByte s (MemId.bootS.loc _)) (readByte s (MemId.bootS.loc _)) = _
    rw [bytes _ (by omega), bytes _ (by omega), even.2, odd.2, byteOfWord, byteOfWord, if_pos even.1, if_neg odd.1,
      joinBytes_hi_lo]

/-! ### What a core reads of its boot ROM -/

@[simp] theorem mask_word (v : Word) : Lanes.mask .word v = v := joinBytes_hi_lo v

theorem targetOf_boot (c : CoreId) {a : Long} (ha : a.toNat < 0x4000) :
    targetOf c.init a = .bootrom c (a.toNat / 2 % Config.bootromWords c) := by
  rw [targetOf_def, if_pos ⟨Nat.zero_le _, ha⟩, CoreId.init_core]

/-- A word read of a core in its boot ROM: the word, no wait, no effect. -/
theorem busRead_boot (c : CoreId) {a : Long} (ha : a.toNat < 0x4000) (s : State) :
    busRead c.init .word a s = (readWord s (bootMem c) (a.toNat / 2 % Config.bootromWords c), 0, s) := by
  rw [busRead, targetOf_boot c ha]
  show (Lanes.mask .word _, 0, s) = _
  rw [mask_word]

/-- The load of a core's registers: the engine's power-on registers, with the entry long of the boot ROM as program
counter (70_reset_and_hazards.md R391). -/
theorem loadEntry_eq (c : CoreId) (s : State) :
    loadEntry c s = setRegs s c (engineResetRegs
      (joinWords (readWord s (bootMem c) 0) (readWord s (bootMem c) 1))) := by
  have hi : busRead c.init .word (evenAddr (Config.entryOffset c)) s = (readWord s (bootMem c) 0, 0, s) :=
    (busRead_boot c (a := evenAddr 0) (by decide) s).trans (by cases c <;> rfl)
  have lo : busRead c.init .word (evenAddr (Config.entryOffset c) + 2) s = (readWord s (bootMem c) 1, 0, s) :=
    (busRead_boot c (a := evenAddr 0 + 2) (by decide) s).trans (by cases c <;> rfl)
  unfold loadEntry memRead
  dsimp only
  rw [hi]
  dsimp only
  rw [lo]

/-- The entry long of a core's boot image. -/
theorem bootLong_entry (c : CoreId) :
    bootLong c (Config.entryOffset c).toNat = joinWords (Config.bootImage c 0) (Config.bootImage c 1) := by
  cases c <;> rfl

/-- What a core is loaded with from its boot image (70_reset_and_hazards.md R391). -/
def entryRegs (c : CoreId) : CoreRegs := engineResetRegs (bootLong c (Config.entryOffset c).toNat)

theorem loadEntry_boot {s : State} (h : BootUnlisted s.mem) (c : CoreId) :
    loadEntry c s = setRegs s c (entryRegs c) := by
  rw [loadEntry_eq, readWord_boot h c (by omega), readWord_boot h c (by omega), entryRegs, bootLong_entry]

/-- Both cores reloaded: nothing but their registers changes. -/
theorem loadBoth_boot {s : State} (h : BootUnlisted s.mem) :
    loadEntry .s (loadEntry .m s) = setRegs (setRegs s .m (entryRegs .m)) .s (entryRegs .s) := by
  have hm : BootUnlisted (setRegs s .m (entryRegs .m)).mem := h
  rw [loadEntry_boot h .m, loadEntry_boot hm .s]

/-- Interrupt entry gives the core registers and may log reads of the external space; nothing else changes. -/
theorem irqDispatch_changes (c : CoreId) (k : Source) (s : State) :
    ∃ e r, (irqDispatch c k s).2 = setRegs { s with extLog := e } c r := by
  obtain ⟨e, he⟩ := memRead_changes c.init (BitVec.ofNat 32 (Config.vecBase + 4 * Config.vec k)) .long s
  unfold irqDispatch
  dsimp only
  rw [he]
  exact ⟨e, _, rfl⟩

@[simp] theorem setRegs_self (s : State) (c : CoreId) : setRegs s c (s.cores.get c).regs = s := by
  cases c <;> rfl

/-- The interrupt part of a normal step, likewise. -/
theorem takeInterrupt_changes (c : CoreId) (s : State) :
    ∃ e r, (takeInterrupt c s).2 = setRegs { s with extLog := e } c r := by
  have none : ∃ e r, s = setRegs { s with extLog := e } c r := ⟨s.extLog, (s.cores.get c).regs, (setRegs_self s c).symm⟩
  unfold takeInterrupt
  split
  · split
    · exact irqDispatch_changes c _ s
    · exact none
  · exact none

/-! ### The writes of a `MemWrite` -/

/-- A `MemWrite` performs its write transactions in order (41_bus.md R196). -/
theorem memWrite_eq_foldl (i : Initiator) (a : Long) (n : Size) (v : Long) (s : State) :
    (memWrite i a n v s).2 = (writesOf a n v).foldl (fun u p => (busWrite i p.1 p.2.1 p.2.2 u).2) s := by
  cases n <;> rfl

/-- What every write transaction keeps, a `MemWrite` keeps. -/
theorem memWrite_preserves {P : State → Prop} (i : Initiator)
    (h : ∀ l a d s, P s → P (busWrite i l a d s).2) (a : Long) (n : Size) (v : Long) {s : State} (hs : P s) :
    P (memWrite i a n v s).2 := by
  cases n
  · exact h _ _ _ _ hs
  · exact h _ _ _ _ hs
  · exact h _ _ _ _ (h _ _ _ _ hs)

/-- What neither a change of `extLog` nor a write transaction of the core touches, an instruction keeps. -/
theorem runProgram_preserves {P : State → Prop} (c : CoreId) (hr : ∀ e s, P s → P { s with extLog := e })
    (hw : ∀ l a d s, P s → P (busWrite c.init l a d s).2) (p : CoreProgram) (w : Nat) {s : State} (hs : P s) :
    P (runProgram c p w s).2.2 := by
  induction p generalizing w s with
  | done r extra => exact hs
  | read a n k ih =>
    obtain ⟨e, he⟩ := memRead_changes c.init a n s
    exact ih _ _ _ (he ▸ hr e s hs)
  | write a n v k ih => exact ih _ _ (memWrite_preserves c.init hw a n v hs)

/-! ### The sample tick (44_pwm.md R301, R302) -/

/-- A channel whose FIFO and last value are those it has. -/
@[simp] theorem setChannel_self (s : State) (ch : Channel) :
    setChannel s ch (s.pwm.fifo.get ch) (s.pwm.last.get ch) = s := by
  rw [setChannel, PerChannel.set_get_self, PerChannel.set_get_self]

/-- `FIFO_READ`: the oldest entry, or the last value emitted (44_pwm.md R296). -/
theorem fifoRead_eq (ch : Channel) (s : State) :
    fifoRead ch s = ((s.pwm.fifo.get ch).head?.getD (s.pwm.last.get ch), (s.pwm.fifo.get ch).length == 1,
      setChannel s ch (s.pwm.fifo.get ch).tail ((s.pwm.fifo.get ch).head?.getD (s.pwm.last.get ch))) := by
  unfold fifoRead
  split
  · next hf =>
    have keep := setChannel_self s ch
    rw [hf] at keep ⊢
    exact Prod.ext rfl (Prod.ext rfl keep.symm)
  · next v rest hf =>
    rw [hf]
    cases rest <;> rfl

/-- `FIFO_DRAIN`: the newest entry, or the last value emitted (44_pwm.md R297). -/
theorem fifoDrain_eq (ch : Channel) (s : State) :
    fifoDrain ch s = ((s.pwm.fifo.get ch).getLast?.getD (s.pwm.last.get ch), (s.pwm.fifo.get ch).length != 0,
      setChannel s ch [] ((s.pwm.fifo.get ch).getLast?.getD (s.pwm.last.get ch))) := by
  unfold fifoDrain
  split
  · next hf =>
    have keep := setChannel_self s ch
    rw [List.getLast?_eq_none_iff.mp hf] at keep ⊢
    exact Prod.ext rfl (Prod.ext rfl keep.symm)
  · next v hf =>
    have hne : ((s.pwm.fifo.get ch).length != 0) = true := by
      rcases he : s.pwm.fifo.get ch with _ | ⟨x, rest⟩
      · rw [he] at hf
        exact nomatch hf
      · rfl
    rw [hf, hne]
    rfl

/-- One sample of a channel in mode `m`. -/
theorem route_eq (ch : Channel) (m : BitVec 2) (s : State) :
    route ch m s = (rawSample (s.pwm.fifo.get ch) (s.pwm.last.get ch) m, emptiedBy (s.pwm.fifo.get ch) m,
      setChannel s ch (fifoAfter (s.pwm.fifo.get ch) m) (lastAfter (s.pwm.fifo.get ch) (s.pwm.last.get ch) m)) := by
  unfold route rawSample emptiedBy fifoAfter lastAfter rawSample
  by_cases h1 : m = 1
  · subst h1
    simp [fifoRead_eq]
  · by_cases h2 : m = 2
    · subst h2
      simp [fifoDrain_eq]
    · rw [if_neg h1, if_neg h2, if_neg h1, if_neg h2, if_neg h1, if_neg h2, if_neg (not_or.mpr ⟨h1, h2⟩),
        beq_false_of_ne h1, beq_false_of_ne h2, setChannel_self]
      rfl

/-- The right channel's mode in a tick: with `mono` it is not sampled (44_pwm.md R301). -/
def rightMode (p : Pwm) : BitVec 2 := if p.mono then 0 else p.rmode

/-- The audio pipeline after both channels are sampled, with these filter states. -/
def pwmAfterTick (q : Pwm) (dc : PerChannel FilterState) : Pwm := { q with
  fifo := ⟨fifoAfter q.fifo.l q.lmode, fifoAfter q.fifo.r (rightMode q)⟩
  last := ⟨lastAfter q.fifo.l q.last.l q.lmode, lastAfter q.fifo.r q.last.r (rightMode q)⟩
  dc := dc }

/-- The state after a tick, before its interrupt: a pair is pushed to the audio sink. -/
def afterTick (s : State) (dc : PerChannel FilterState) (pair : BitVec 16 × BitVec 16) : State :=
  { s with pwm := pwmAfterTick s.pwm dc, audioOut := s.audioOut ++ [pair] }

/-- `SAMPLE_TICK`: both channels sampled, `pwm` raised where a FIFO was emptied and `dreqIRQ` is set. -/
theorem sampleTick_eq (s : State) : ∃ dc pair, sampleTick s =
    if tickEmpties s.pwm && s.pwm.dreqIRQ then irqRaiseBoth .pwm (afterTick s dc pair)
    else afterTick s dc pair := by
  unfold sampleTick afterTick pwmAfterTick rightMode tickEmpties
  rw [route_eq]
  dsimp only
  by_cases hm : s.pwm.mono = true
  · rw [if_pos hm, if_pos hm]
    exact ⟨_, _, by simp [hm, setChannel, fifoAfter, lastAfter]; rfl⟩
  · rw [if_neg hm, if_neg hm, route_eq]
    exact ⟨_, _, by simp [hm, setChannel]; rfl⟩

/-- `SAMPLE_TICK` touches the audio pipeline, its output and the interrupt bits. -/
theorem sampleTick_frame (s : State) :
    ∃ q out k, sampleTick s = { s with pwm := q, audioOut := out, cores := k } := by
  obtain ⟨dc, pair, e⟩ := sampleTick_eq s
  rw [e]
  split
  · exact ⟨_, _, _, irqRaiseBoth_eq _ _⟩
  · exact ⟨_, _, s.cores, rfl⟩

/-- `PWM_TIMER_STEP` touches the audio pipeline, its output and the interrupt bits. -/
theorem pwmTimerStep_frame (s : State) :
    ∃ q out k, pwmTimerStep s = { s with pwm := q, audioOut := out, cores := k } := by
  unfold pwmTimerStep
  dsimp only
  split
  · obtain ⟨q, out, k, e⟩ := sampleTick_frame
      { s with pwm := { s.pwm with cycle := s.pwm.cycle + 1, counter := 0 } }
    exact ⟨q, out, k, e⟩
  · exact ⟨_, s.audioOut, s.cores, rfl⟩

/-- `AUDIO_STEP` after its PWM and DREQ parts (40_scheduler.md R158). -/
def afterTransfer (s : State) : State :=
  if (pwmTimerStep s).dreq.active then dreqStep (pwmTimerStep s) else pwmTimerStep s

theorem audioBody_eq (s : State) : audioBody s =
    if (afterTransfer s).vdp.autofillActive then autofillStep (afterTransfer s) else afterTransfer s := rfl

/-- What the parts of `AUDIO_STEP` keep, each where it runs, its body keeps. -/
theorem audioBody_induction {P : State → Prop} {s : State} (timer : P (pwmTimerStep s))
    (transfer : (pwmTimerStep s).dreq.active = true → P (dreqStep (pwmTimerStep s)))
    (fill : P (afterTransfer s) → (afterTransfer s).vdp.autofillActive = true → P (autofillStep (afterTransfer s))) :
    P (audioBody s) := by
  have transferred : P (afterTransfer s) := iteInduction transfer fun _ => timer
  rw [audioBody_eq]
  exact iteInduction (fill transferred) fun _ => transferred

/-- A sample takes entries off a FIFO and adds none. -/
theorem fifoAfter_length_le (f : List (BitVec 12)) (m : BitVec 2) : (fifoAfter f m).length ≤ f.length := by
  unfold fifoAfter
  split
  · simp
  · split <;> simp

end Sys2Proof.StateProofs
end

section
/-! The read values of the registers, field by field, and the writes that store fields (10_state.md R50 to R71). Each
read is `exec_reg_read` with the register's word; what the word holds is said once, for the word. -/

namespace Sys2Proof.StateProofs
open Sys2Proof.Machine Sys2Proof.Laws

/- Elaborate these proofs one after the other. All at once, while the kernel still checks the text above, they can need
more threads than the check's limit on memory has room for. -/
set_option deprecated.oldSectionVars true

/-! ### Fields of a word built of parts -/

/-- A bit of the lower part of a word. -/
theorem getLsbD_append_low {m n : Nat} (x : BitVec m) (y : BitVec n) {k : Nat} (h : k < n) :
    (x ++ y).getLsbD k = y.getLsbD k := by rw [BitVec.getLsbD_append, if_pos h]

/-- A bit of the upper part of a word. -/
theorem getLsbD_append_high {m n : Nat} (x : BitVec m) (y : BitVec n) {k : Nat} (h : n ≤ k) :
    (x ++ y).getLsbD k = x.getLsbD (k - n) := by rw [BitVec.getLsbD_append, if_neg (Nat.not_lt.mpr h)]

theorem getLsbD_bit (b : Bool) : (bit b).getLsbD 0 = b := by cases b <;> rfl

/-- The bit a word holds just above its lower part. -/
theorem getLsbD_append_bit {m : Nat} (x : BitVec m) (b : Bool) : (x ++ bit b).getLsbD 0 = b :=
  (getLsbD_append_low _ _ Nat.one_pos).trans (getLsbD_bit b)

@[simp] theorem mask_zero (l : Lanes) : l.mask 0 = 0 := by cases l <;> rfl

/-! ### The interrupt controller -/

/-- The five bits of a source word, in the order of 10_state.md R50. -/
theorem sourceWord_bit (b : SourceBits) (k : Source) : (sourceWord b).getLsbD k.code.toNat = b.get k := by
  have bits : (sourceWord b).getLsbD 0 = b.pwm ∧ (sourceWord b).getLsbD 1 = b.cmd ∧
      (sourceWord b).getLsbD 2 = b.hint ∧ (sourceWord b).getLsbD 3 = b.vint ∧ (sourceWord b).getLsbD 4 = b.vres := by
    unfold sourceWord
    refine ⟨?_, ?_, ?_, ?_, ?_⟩ <;> repeat rw [getLsbD_append_high _ _ (by omega)]
    all_goals exact getLsbD_append_bit _ _
  obtain ⟨hpwm, hcmd, hhint, hvint, hvres⟩ := bits
  cases k
  · exact hpwm
  · exact hcmd
  · exact hhint
  · exact hvint
  · exact hvres

theorem sourceWord_high (b : SourceBits) : (sourceWord b).extractLsb' 5 11 = 0 := by
  unfold sourceWord
  repeat rw [field_high _ _ (by omega)]
  exact field_whole _

theorem regRead_irqen (c : CoreId) (s : State) :
    regRead c.init .irqen s = sourceWord (s.cores.get c).irq.enable := by cases c <;> rfl

theorem regRead_irqstat (c : CoreId) (s : State) :
    regRead c.init .irqstat s = sourceWord (s.cores.get c).irq.active := by cases c <;> rfl

/-- H and DREQ have no controller (42_interrupt.md R222). -/
theorem regRead_banked_none {i : Initiator} (hi : i = .h ∨ i = .dreq) {r : Reg}
    (hr : r ∈ [Reg.irqen, .irqstat, .irqack]) (s : State) : regRead i r s = 0 := by
  simp only [List.mem_cons, List.not_mem_nil, or_false] at hr
  rcases hi with rfl | rfl <;> rcases hr with rfl | rfl | rfl <;> rfl

/-- Settles O18. -/
theorem interruptRegistersReadTheOwnController : Obligations.InterruptRegistersReadTheOwnController := by
  intro l s
  refine ⟨fun c => ⟨⟨_, ?_, sourceWord_bit _, sourceWord_high _⟩, ⟨_, ?_, sourceWord_bit _, sourceWord_high _⟩, ?_⟩,
    fun i hi hm j hj => ?_⟩
  · rw [← regRead_irqen]
    exact exec_reg_read .irqen c.init l s (mayIssue_core c s)
  · rw [← regRead_irqstat]
    exact exec_reg_read .irqstat c.init l s (mayIssue_core c s)
  · have read := exec_reg_read .irqack c.init l s (mayIssue_core c s)
    rwa [show regRead c.init .irqack s = 0 from rfl, mask_zero] at read
  · have zero (r : Reg) (hr : r ∈ [Reg.irqen, .irqstat, .irqack]) :
        exec (r.readInstr i l) s = .next { s with result := .bus 0 0 } := by
      rw [exec_reg_read r i l s hm, regRead_banked_none hi hr, mask_zero]
    simp only [List.mem_cons, List.not_mem_nil, or_false] at hj
    rcases hj with rfl | rfl | rfl
    · exact zero .irqen (by simp)
    · exact zero .irqstat (by simp)
    · exact zero .irqack (by simp)

/-- The core with its `cmd` bit raised where asked. -/
theorem irqRaise_cmd_eq (c : CoreId) (b : Bool) (s : State) :
    (if b then irqRaise c .cmd s else s) = { s with cores := s.cores.set c { s.cores.get c with
      irq := { (s.cores.get c).irq with active := { (s.cores.get c).irq.active with
        cmd := (s.cores.get c).irq.active.cmd || b } } } } := by
  cases b <;> cases c <;> simp [irqRaise, setIrq, setCore, SourceBits.set]

/-- Settles O20. -/
theorem cmdreqRaisesCmdOnTheNamedCores : Obligations.CmdreqRaisesCmdOnTheNamedCores := by
  intro i l d s hm
  refine ⟨⟨cmdreqWord s, exec_reg_read .cmdreq i l s hm, ?_, ?_, ?_⟩, ?_⟩
  · exact getLsbD_append_bit _ _
  · exact (getLsbD_append_high _ _ (by omega)).trans (getLsbD_append_bit _ _)
  · unfold cmdreqWord
    repeat rw [field_high _ _ (by omega)]
    exact field_whole _
  · refine (exec_reg_write .cmdreq i l d s hm).trans ?_
    unfold regWrite cmdreqWrite
    cases l <;> simp [irqRaise_cmd_eq, Lanes.l]

/-! ### The IO registers -/

theorem adapterWord_fields (io : Io) : (adapterWord io).getLsbD 0 = io.adapterEnable ∧
    (adapterWord io).getLsbD 1 = io.adapterReset ∧ (adapterWord io).getLsbD 2 = io.resetEnable ∧
    (adapterWord io).getLsbD 3 = io.cartridgeMode ∧ (adapterWord io).extractLsb' 4 2 = io.romBank ∧
    (adapterWord io).extractLsb' 6 10 = 0 := by
  unfold adapterWord
  refine ⟨?_, ?_, ?_, ?_, ?_, ?_⟩
  case refine_5 =>
    repeat rw [field_high _ _ (by omega)]
    exact (field_low _ _ (by decide)).trans (field_whole _)
  case refine_6 =>
    repeat rw [field_high _ _ (by decide)]
    exact field_whole _
  all_goals repeat rw [getLsbD_append_high _ _ (by omega)]
  all_goals exact getLsbD_append_bit _ _

/-- Settles O25. -/
theorem ioRegistersReadAndStoreTheirFields : Obligations.IoRegistersReadAndStoreTheirFields := by
  refine ⟨fun i l s hm => ⟨⟨_, exec_reg_read .adapter i l s hm, adapterWord_fields s.io⟩,
    exec_reg_read .hperiod i l s hm, exec_reg_read .hcounter i l s hm⟩, fun i l d s hm => ⟨fun hl hedge => ?_,
    fun hl => ?_, exec_reg_write .hperiod i l d s hm, exec_reg_write .hcounter i l d s hm⟩⟩
  · refine (exec_reg_write .adapter i l d s hm).trans ?_
    have lower := lower_of_ne_upper hl
    have noEdge : ¬ (!s.io.adapterReset && d.getLsbD 1) = true := by
      rcases hedge with h | h
      · rw [h]
        exact Bool.false_ne_true
      · rw [h, Bool.and_false]
        exact Bool.false_ne_true
    unfold regWrite adapterWrite
    dsimp only
    rw [if_pos lower, if_neg noEdge]
  · subst hl
    exact exec_reg_write .adapter i .upper d s hm

/-! ### The audio registers -/

theorem pwmctlWord_fields (p : Pwm) : (pwmctlWord p).extractLsb' 0 2 = p.lmode ∧
    (pwmctlWord p).extractLsb' 2 2 = p.rmode ∧ (pwmctlWord p).getLsbD 4 = p.mono ∧
    (pwmctlWord p).extractLsb' 5 2 = 0 ∧ (pwmctlWord p).getLsbD 7 = p.dreqIRQ ∧
    (pwmctlWord p).extractLsb' 8 4 = p.timer ∧ (pwmctlWord p).extractLsb' 12 4 = 0 := by
  unfold pwmctlWord
  refine ⟨?_, ?_, ?_, ?_, ?_, ?_, ?_⟩
  case refine_3 | refine_5 =>
    repeat rw [getLsbD_append_high _ _ (by omega)]
    exact getLsbD_append_bit _ _
  case refine_7 =>
    repeat rw [field_high _ _ (by omega)]
    exact field_whole _
  all_goals repeat rw [field_high _ _ (by omega)]
  all_goals exact (field_low _ _ (by omega)).trans (field_whole _)

/-- A FIFO's status: bit 15 full, bit 14 empty (44_pwm.md R294). -/
theorem fifoWord_fields (f : List (BitVec 12)) : (fifoWord f).getLsbD 15 = (f.length == 3) ∧
    (fifoWord f).getLsbD 14 = f.isEmpty ∧ (fifoWord f).extractLsb' 0 14 = 0 := by
  unfold fifoWord
  refine ⟨?_, ?_, (field_low _ _ (by omega)).trans (field_whole _)⟩
  · repeat rw [getLsbD_append_high _ _ (by omega)]
    exact getLsbD_bit _
  · rw [getLsbD_append_high _ _ (by omega)]
    refine (getLsbD_append_bit _ _).trans ?_
    cases f <;> rfl

/-- A narrow value read as a word: itself in the low bits, 0 above. -/
theorem setWidth_fields {n : Nat} (v : BitVec n) (m : Nat) (h : n + m = 16) :
    (v.setWidth 16).extractLsb' 0 n = v ∧ (v.setWidth 16).extractLsb' n m = 0 := by
  constructor
  · ext k hk
    simp [BitVec.getElem_extractLsb', BitVec.getLsbD_setWidth, BitVec.getLsbD_eq_getElem hk]
    omega
  · ext k hk
    simp [BitVec.getElem_extractLsb', BitVec.getLsbD_setWidth]

/-- Settles O28. -/
theorem pwmRegistersReadTheirFields : Obligations.PwmRegistersReadTheirFields :=
  fun i l s hm => ⟨⟨_, exec_reg_read .pwmctl i l s hm, pwmctlWord_fields s.pwm⟩,
    ⟨_, exec_reg_read .pwmcyc i l s hm, setWidth_fields s.pwm.cycle 4 rfl⟩,
    ⟨_, exec_reg_read .pwml i l s hm, fifoWord_fields s.pwm.fifo.l⟩,
    ⟨_, exec_reg_read .pwmr i l s hm, fifoWord_fields s.pwm.fifo.r⟩⟩

/-! ### The DREQ registers -/

theorem dreqctlWord_fields (d : Dreq) : (dreqctlWord d).getLsbD 0 = d.vram ∧ (dreqctlWord d).getLsbD 1 = d.dma ∧
    (dreqctlWord d).getLsbD 2 = d.active ∧ (dreqctlWord d).extractLsb' 3 13 = 0 := by
  unfold dreqctlWord
  refine ⟨?_, ?_, ?_, ?_⟩
  case refine_4 =>
    repeat rw [field_high _ _ (by omega)]
    exact field_whole _
  all_goals repeat rw [getLsbD_append_high _ _ (by omega)]
  all_goals exact getLsbD_append_bit _ _

/-- Settles O34. -/
theorem dreqRegistersReadTheCurrentValues : Obligations.DreqRegistersReadTheCurrentValues :=
  fun i l s hm => ⟨⟨_, exec_reg_read .dreqctl i l s hm, dreqctlWord_fields s.dreq⟩,
    ⟨_, exec_reg_read .dreqsrch i l s hm, setWidth_fields _ 8 rfl⟩,
    ⟨_, exec_reg_read .dreqdsth i l s hm, setWidth_fields _ 8 rfl⟩,
    exec_reg_read .dreqsrcl i l s hm, exec_reg_read .dreqdstl i l s hm, exec_reg_read .dreqlen i l s hm⟩

/-! ### The VDP registers -/

theorem framebufferEngaged_iff (s : State) : framebufferEngaged s = true ↔
    (s.vdp.vblank = false ∧ s.vdp.latch.mode ≠ .blank) ∨ s.vdp.autofillActive = true ∨
      (s.dreq.active = true ∧ s.dreq.vram = true) := by
  simp [framebufferEngaged, scanEngaged, paintEngaged]

theorem paletteEngaged_iff (s : State) : paletteEngaged s = true ↔
    s.vdp.vblank = false ∧ (s.vdp.latch.mode = .packed ∨ s.vdp.latch.mode = .rle) := by
  simp [paletteEngaged]

theorem vdpmodeWord_fields (v : Vdp) : (vdpmodeWord v).extractLsb' 0 2 = v.live.mode.code ∧
    (vdpmodeWord v).extractLsb' 2 4 = 0 ∧ (vdpmodeWord v).getLsbD 6 = v.live.lines ∧
    (vdpmodeWord v).getLsbD 7 = v.live.priority ∧ (vdpmodeWord v).extractLsb' 8 8 = 0 := by
  unfold vdpmodeWord
  refine ⟨(field_low _ _ (by omega)).trans (field_whole _), ?_, ?_, ?_, ?_⟩
  case refine_3 | refine_2 =>
    repeat rw [getLsbD_append_high _ _ (by omega)]
    exact getLsbD_append_bit _ _
  case refine_1 =>
    rw [field_high _ _ (by omega)]
    exact (field_low _ _ (by omega)).trans (field_whole _)
  case refine_4 =>
    repeat rw [field_high _ _ (by omega)]
    exact field_whole _

theorem fbctlWord_fields (s : State) : (fbctlWord s).getLsbD 0 = s.fbSel ∧
    (fbctlWord s).getLsbD 1 = framebufferEngaged s ∧ (fbctlWord s).getLsbD 2 = paletteEngaged s ∧
    (fbctlWord s).getLsbD 3 = s.vdp.autofillActive ∧ (fbctlWord s).getLsbD 4 = s.vdp.fbReq ∧
    (fbctlWord s).extractLsb' 5 9 = 0 ∧ (fbctlWord s).getLsbD 14 = s.vdp.hblank ∧
    (fbctlWord s).getLsbD 15 = s.vdp.vblank := by
  unfold fbctlWord
  refine ⟨?_, ?_, ?_, ?_, ?_, ?_, ?_, ?_⟩
  case refine_6 =>
    repeat rw [field_high _ _ (by omega)]
    exact (field_low _ _ (by omega)).trans (field_whole _)
  case refine_8 =>
    repeat rw [getLsbD_append_high _ _ (by omega)]
    exact getLsbD_bit _
  all_goals repeat rw [getLsbD_append_high _ _ (by omega)]
  all_goals exact getLsbD_append_bit _ _

theorem dotshift_fields (b : Bool) :
    ((bit b).setWidth 16).getLsbD 0 = b ∧ ((bit b).setWidth 16).extractLsb' 1 15 = 0 := by
  cases b <;> decide

/-- Settles O38. -/
theorem vdpRegistersReadTheLiveValues : Obligations.VdpRegistersReadTheLiveValues := by
  intro i l s hm
  obtain ⟨hmode, hgap, hlines, hpriority, hhigh⟩ := vdpmodeWord_fields s.vdp
  obtain ⟨hsel, hengaged, hpalette, hfill, hreq, hzero, hhblank, hvblank⟩ := fbctlWord_fields s
  refine ⟨⟨_, exec_reg_read .vdpmode i l s hm, hmode.trans ?_, hgap, hlines, hpriority, hhigh⟩,
    ⟨_, exec_reg_read .vdpshift i l s hm, dotshift_fields _⟩, exec_reg_read .aflen i l s hm,
    exec_reg_read .afaddr i l s hm, exec_reg_read .afdata i l s hm,
    ⟨_, exec_reg_read .fbctl i l s hm, hsel, ?_, ?_, hfill, hreq, hzero, hhblank, hvblank⟩⟩
  · cases s.vdp.live.mode <;> rfl
  · exact (Bool.eq_iff_iff.mp hengaged).trans (framebufferEngaged_iff s)
  · exact (Bool.eq_iff_iff.mp hpalette).trans (paletteEngaged_iff s)

/-- `FB_COMMIT` in one equation (43_vdp.md R247). -/
theorem fbCommit_eq_ite (s : State) :
    fbCommit s = { s with fbSel := if framebufferEngaged s then s.fbSel else s.vdp.fbReq } := by
  rw [fbCommit_eq, fbCommit_fbSel]

/-- `SELECT_FB` in one equation: the request does not change the engagement (43_vdp.md R246). -/
theorem selectFb_eq_ite (v : Bool) (s : State) : selectFb v s = { s with
    vdp := { s.vdp with fbReq := v }, fbSel := if framebufferEngaged s then s.fbSel else v } := by
  rw [selectFb, fbCommit_eq_ite]
  rfl

/-- Settles O40. -/
theorem fbCommitSwapsOnlyWhileDisengaged : Obligations.FbCommitSwapsOnlyWhileDisengaged := by
  intro s thr v
  refine ⟨framebufferEngaged_iff s, ?_, ?_, fun i l d hm => ⟨fun hl => ?_, fun hl => ?_⟩⟩
  · show procedure (fbCommit s) = _
    rw [procedure, fbCommit_eq_ite]
    rfl
  · show procedure (selectFb v s) = _
    rw [procedure, selectFb_eq_ite]
    rfl
  · subst hl
    exact exec_reg_write .fbctl i .upper d s hm
  · have lower := lower_of_ne_upper hl
    refine (exec_reg_write .fbctl i l d s hm).trans ?_
    unfold regWrite fbctlWrite
    dsimp only
    rw [if_pos lower, selectFb_eq_ite]

/-! ### A synchronisation -/

/-- Settles O50. -/
theorem syncResolveYieldsToAPartnerBehind : Obligations.SyncResolveYieldsToAPartnerBehind := by
  intro t p rest s htoken halive hpend
  have runs : exec (.syncResolve t) s = .next (setResult (syncResolve t p rest s) .none) :=
    exec_syncResolve_next.mpr ⟨htoken, halive, p, rest, hpend, rfl⟩
  have behind : (s.alive p && decide (s.clk.get p < s.clk.get t)) = true ↔
      s.alive p = true ∧ s.clk.get p < s.clk.get t := by simp
  refine ⟨fun h => ?_, fun h => ?_⟩
  · rw [runs, syncResolve, if_pos (behind.mpr h)]
    rfl
  · rw [runs, syncResolve, if_neg (mt behind.mp h)]
    rfl

end Sys2Proof.StateProofs
end

section
/-! The two rows of a bus word: the register or window row it is taken as has the effect and the place of the generic
one (30_encoding.md R133; log entry 2). -/

namespace Sys2Proof.StateProofs
open Sys2Proof.Machine Sys2Proof.Laws

/- Elaborate these proofs one after the other. All at once, while the kernel still checks the text above, they can need
more threads than the check's limit on memory has room for. -/
set_option deprecated.oldSectionVars true

/-- A target of address `a` as the window rows name it: by the low bits of the address. -/
def AtWindow (i : Initiator) (a : Long) : Target → Prop
  | .bootrom c idx => i = c.init ∧ idx = (a.setWidth 14).toNat / 2 % Config.bootromWords c
  | .reg _ => True
  | .palette idx => idx = (a.setWidth 9).toNat / 2
  | .vram idx => idx = (a.setWidth 17).toNat / 2
  | .sdram idx =>
    idx = if a.toNat < 0x80000 then (a.setWidth 17).toNat / 2 else 0x10000 + (a.setWidth 17).toNat / 2
  | .reserved => True
  | .external x => x = evenAddr a

theorem atWindow_targetOf (i : Initiator) (a : Long) : AtWindow i a (targetOf i a) := by
  rw [targetOf_def]
  split
  · next h =>
    split
    · next c hc =>
      have low : (a.setWidth 14).toNat = a.toNat := by simp only [BitVec.toNat_setWidth]; omega
      exact ⟨init_of_core? hc, by rw [low]⟩
    · rfl
  · split
    · next h =>
      rw [pageEntry_def]
      split
      · next hpal =>
        have page : (a.setWidth 10).toNat = a.toNat - 0x4000 := by simp only [BitVec.toNat_setWidth]; omega
        have low : (a.setWidth 9).toNat = a.toNat - 0x4200 := by simp only [BitVec.toNat_setWidth]; omega
        show _ / 2 = _ / 2
        rw [page, low]
        omega
      · split <;> trivial
    · split
      · next h =>
        have low : (a.setWidth 17).toNat = a.toNat - 0x40000 := by simp only [BitVec.toNat_setWidth]; omega
        show _ / 2 = _ / 2
        rw [low]
      · split
        · next h =>
          show _ = ite _ _ _
          split
          · have low : (a.setWidth 17).toNat = a.toNat - 0x60000 := by simp only [BitVec.toNat_setWidth]; omega
            rw [low]
          · have low : (a.setWidth 17).toNat = a.toNat - 0x80000 := by simp only [BitVec.toNat_setWidth]; omega
            rw [low]
            omega
        · rfl

/-- The row of level `target` has the effect of the transaction. -/
theorem exec_targetInstr_read (i : Initiator) (ln : Lanes) (a : Long) (d : Word) (s : State) :
    exec (targetInstr i .read ln a d) s = transactRead i ln (targetOf i a) s := by
  have hw := atWindow_targetOf i a
  unfold targetInstr
  generalize targetOf i a = g at hw ⊢
  cases g
  case reg r => exact exec_readInstr r i ln s
  case reserved => rfl
  case bootrom c idx =>
    obtain ⟨rfl, rfl⟩ := hw
    rfl
  case palette | vram | external =>
    cases hw
    rfl
  case sdram idx =>
    cases hw
    dsimp only
    split <;> rfl

theorem exec_targetInstr_write (i : Initiator) (ln : Lanes) (a : Long) (d : Word) (s : State) :
    exec (targetInstr i .write ln a d) s = transactWrite i ln (targetOf i a) d s := by
  have hw := atWindow_targetOf i a
  unfold targetInstr
  generalize targetOf i a = g at hw ⊢
  cases g
  case reg r => exact exec_writeInstr r i ln d s
  case reserved => rfl
  case bootrom c idx =>
    obtain ⟨rfl, rfl⟩ := hw
    rfl
  case palette | vram | external =>
    cases hw
    rfl
  case sdram idx =>
    cases hw
    dsimp only
    split <;> rfl

/-- The row of level `target` stands where its initiator's transactions stand. -/
theorem instrPlace_targetInstr (i : Initiator) (rw : Dir) (ln : Lanes) (a : Long) (d : Word) :
    instrPlace (targetInstr i rw ln a d) = initiatorPlace i := by
  have hw := atWindow_targetOf i a
  unfold targetInstr
  generalize targetOf i a = g at hw ⊢
  cases rw
  · cases g
    case reg r => exact instrPlace_readInstr r i ln
    case bootrom c idx => exact congrArg initiatorPlace hw.1.symm
    case sdram idx =>
      dsimp only
      split <;> rfl
    all_goals rfl
  · cases g
    case reg r => exact instrPlace_writeInstr r i ln d
    case bootrom c idx => exact congrArg initiatorPlace hw.1.symm
    case sdram idx =>
      dsimp only
      split <;> rfl
    all_goals rfl

/-! ### A word that matches a generic row -/

/-- The data field of a generic read is not looked at. -/
theorem genericInstr_read (i : Initiator) (ln : Lanes) (a : Long) (d : Word) :
    genericInstr i .read ln a d = readOn ln i a := by cases ln <;> rfl

/-- What a decoder of formats E and I answers, if anything, is no row of level `generic`. -/
def NoGeneric (o : Option Instr) : Prop := ∀ j, o = some j → j.level = .target

theorem NoGeneric.none : NoGeneric none := nofun

theorem NoGeneric.some {j : Instr} (h : j.level = .target) : NoGeneric (some j) := fun _ e => Option.some.inj e ▸ h

theorem NoGeneric.map {f : Source → Instr} (hf : ∀ k, (f k).level = .target) (o : Option Source) :
    NoGeneric (o.map f) := by
  cases o
  · exact .none
  · exact .some (hf _)

theorem NoGeneric.ite {c : Prop} [Decidable c] {x y : Option Instr} (hx : NoGeneric x) (hy : NoGeneric y) :
    NoGeneric (if c then x else y) := iteInduction (fun _ => hx) fun _ => hy

theorem noGeneric_decodeEvent (op : BitVec 8) (z : BitVec 20) (arg : BitVec 32) :
    NoGeneric (decodeEvent op z arg) := by
  unfold decodeEvent
  repeat' apply NoGeneric.ite
  all_goals first | exact .none | exact .some rfl

theorem noGeneric_decodeInternal (op : BitVec 8) (thr : BitVec 2) (z : BitVec 18) (arg : BitVec 32) :
    NoGeneric (decodeInternal op thr z arg) := by
  unfold decodeInternal
  repeat' apply NoGeneric.ite
  all_goals first | exact .none | exact .some rfl | exact .map (fun _ => rfl) _

/-- A word that decodes to a generic row is a format B word; it is taken as that row or as the register or window row
of the same transaction. -/
theorem decode_of_generic {w : OpWord} {j : Instr} (h : decodeAt .generic w = some j) (hj : j.level = .generic)
    (hlanes : instrPlace j ≠ .anywhere) : ∃ i rw ln a d, j = genericInstr i rw ln a d ∧
      (decode w = some j ∨ decode w = some (targetInstr i rw ln a d)) := by
  unfold decodeAt at h
  split at h
  · next hb =>
    have target : decodeAt .target w = decodeBus .target (initOf (w.extractLsb' 58 2)) (dirOf (w.extractLsb' 57 1))
        (w.extractLsb' 55 2) (w.extractLsb' 48 7) (w.extractLsb' 16 32) (w.extractLsb' 0 16) := by
      rw [decodeAt, if_pos hb]
    have generic : decodeAt .generic w = some j := by rw [decodeAt, if_pos hb]; exact h
    generalize initOf (w.extractLsb' 58 2) = i at h target
    generalize dirOf (w.extractLsb' 57 1) = rw at h target
    generalize w.extractLsb' 16 32 = a at h target
    generalize w.extractLsb' 0 16 = d at h target
    unfold decodeBus at h target
    split at h
    · next hz =>
      rw [if_pos hz] at target
      rcases hl : lanesOf (w.extractLsb' 55 2) with _ | ln
      · rw [hl] at h
        cases h
        exact absurd rfl hlanes
      · rw [hl] at h target
        cases h
        refine ⟨i, rw, ln, a, d, rfl, ?_⟩
        unfold decode
        rw [target]
        dsimp only
        split
        · exact .inl generic
        · exact .inr rfl
    · exact nomatch h
  · split at h
    · exact nomatch hj.symm.trans (noGeneric_decodeEvent _ _ _ j h)
    · split at h
      · exact nomatch hj.symm.trans (noGeneric_decodeInternal _ _ _ _ j h)
      · exact nomatch h

/-- A word that is a generic transaction of `i` is taken as an instruction with its effect and its place. -/
theorem decode_transaction {w : OpWord} {i : Initiator} {l : Lanes} {a : Long} {d : Word} {j : Instr}
    (hj : j = readOn l i a ∨ j = writeOn l i a d) (h : decodeAt .generic w = some j) :
    ∃ j', decode w = some j' ∧ instrPlace j' = initiatorPlace i ∧ ∀ s, exec j' s = exec j s := by
  have place : instrPlace j = initiatorPlace i := by
    rcases hj with rfl | rfl
    · exact instrPlace_readOn l i a
    · exact instrPlace_writeOn l i a d
  have level : j.level = .generic := by rcases hj with rfl | rfl <;> cases l <;> rfl
  have somewhere : instrPlace j ≠ .anywhere := by rw [place]; cases i <;> exact nofun
  obtain ⟨i', rw', ln, a', d', hgen, hd | hd⟩ := decode_of_generic h level somewhere
  · exact ⟨j, hd, place, fun _ => rfl⟩
  · refine ⟨_, hd, ?_, fun s => ?_⟩
    · have same : initiatorPlace i' = initiatorPlace i := by
        rw [← place, hgen]
        cases rw'
        · rw [genericInstr_read]
          exact (instrPlace_readOn ln i' a').symm
        · exact (instrPlace_writeOn ln i' a' d').symm
      exact (instrPlace_targetInstr i' rw' ln a' d').trans same
    · rw [hgen]
      cases rw'
      · rw [genericInstr_read]
        exact (exec_targetInstr_read i' ln a' d' s).trans (exec_readOn ln i' a' s).symm
      · exact (exec_targetInstr_write i' ln a' d' s).trans (exec_writeOn ln i' a' d' s).symm

end Sys2Proof.StateProofs
end

section
/-! What an operation that answers a next state did, one constructor per kind of operation. -/

namespace Sys2Proof.StateProofs
open Sys2Proof.Machine Sys2Proof.Laws

/-- The word index of a target lies in its memory (20_memory.md R84). -/
def InRange : Target → Prop
  | .palette idx => idx < 256
  | .vram idx => idx < 65536
  | .sdram idx => idx < 131072
  | _ => True

/-- What the address map gives lies in its memory. -/
theorem inRange_targetOf (i : Initiator) (a : Long) : InRange (targetOf i a) := by
  have hoff := (a.setWidth 10).isLt
  rw [targetOf_def]
  split
  · split <;> trivial
  · split
    · rw [pageEntry_def]
      split
      · show _ < 256
        omega
      · split <;> trivial
    · split
      · show _ < 65536
        omega
      · split
        · show _ < 131072
          omega
        · trivial

/-- `Performed j s u`: operation `j`, enabled in `s`, leaves the state `u`, but for the field `result`. -/
inductive Performed : Instr → State → State → Prop
  | read {j s} (i l g) : instrPlace j = initiatorPlace i → MayIssue i s → Performed j s (targetRead i l g s).2
  | regWrite {s} (r : Reg) (i l d) : MayIssue i s → Performed (r.writeInstr i l d) s (regWrite i r l d s)
  | busWrite {s} (l i a d) : MayIssue i s → Performed (writeOn l i a d) s (targetWrite i l (targetOf i a) d s)
  /-- A write to a window, which holds no register. -/
  | windowWrite {j s} (i l g d) : instrPlace j = initiatorPlace i →
      MayIssue i s → InRange g → (∀ r, g ≠ .reg r) → Performed j s (targetWrite i l g d s)
  | power {s} (r) : HostTurn s → Performed (.power r) s (power r s)
  | restart {s} : HostTurn s → Performed .restart s (restart s)
  | unload {s} : HostTurn s → Performed .unload s (unload s)
  | vblank {s} (b) : HostTurn s → Performed (.vblank b) s (vblankEvent b s)
  | hblank {s} (b) : HostTurn s → Performed (.hblank b) s (hblankEvent b s)
  | scanline {s} (y) : HostTurn s →
      Performed (.scanline y) s { s with pixels := scanlineOf s y.toNat s.pixels }
  | hostAdvance {s} (n) : HostTurn s → Performed (.hostAdvance n) s (tick .h n.toNat s)
  | hostSync {s} : HostTurn s → Performed .hostSync s (setPend s .h [.m, .s, .a])
  | coreStep {s} (c) : CoreTurn c s → Performed (coreStepOf c) s (coreStep c s)
  | syncResolve {s} (q p rest) : s.token = q → s.alive q = true → s.pend.get q = p :: rest →
      Performed (.syncResolve q) s (syncResolve q p rest s)
  | audioStep {s} : AudioTurn s → Performed .audioStep s (audioStep s)
  | pwmTimerStep {s} : Performed .pwmTimerStep s (pwmTimerStep s)
  | sampleTick {s} : Performed .sampleTick s (sampleTick s)
  | fifoWrite {s} (thr ch v) : Performed (.fifoWrite thr ch v) s (fifoWrite ch v s)
  | fifoRead {s} (ch) : Performed (.fifoRead ch) s (fifoRead ch s).2.2
  | fifoDrain {s} (ch) : Performed (.fifoDrain ch) s (fifoDrain ch s).2.2
  | dreqStep {s} : s.dreq.active = true → Performed .dreqStep s (dreqStep s)
  | autofillStep {s} : s.vdp.autofillActive = true → Performed .autofillStep s (autofillStep s)
  | irqRaise {s} (thr c k) : Performed (.irqRaise thr c k) s (irqRaise c k s)
  | irqQuery {j s} (c) : instrPlace j = .within [.normalStep c] → Performed j s s
  | irqDispatch {j s} (c k) : instrPlace j = .within [.normalStep c] → Performed j s (irqDispatch c k s).2
  | latchCommit {s} : Performed .latchCommit s (latchCommit s)
  | fbCommit {s} (thr) : Performed (.fbCommit thr) s (fbCommit s)
  | selectFb {s} (thr v) : Performed (.selectFb thr v) s (selectFb v s)

/-- The next state is what the operation leaves, with some result recorded. -/
def Performs (j : Instr) (s t : State) : Prop := ∃ u r, Performed j s u ∧ t = setResult u r

theorem performs_read {j : Instr} {i : Initiator} {l : Lanes} {g : Target} {s t : State}
    (h : transactRead i l g s = .next t) (hp : instrPlace j = initiatorPlace i) : Performs j s t := by
  obtain ⟨hr, rfl⟩ := transactRead_next.mp h
  exact ⟨_, _, .read i l g hp ((initiatorReady_iff i s).mp hr), rfl⟩

theorem performs_regWrite (r : Reg) {i : Initiator} {l : Lanes} {d : Word} {s t : State}
    (h : transactWrite i l (.reg r) d s = .next t) : Performs (r.writeInstr i l d) s t := by
  obtain ⟨hr, rfl⟩ := transactWrite_next.mp h
  exact ⟨_, _, .regWrite r i l d ((initiatorReady_iff i s).mp hr), rfl⟩

theorem performs_busWrite {l : Lanes} {i : Initiator} {a : Long} {d : Word} {s t : State}
    (h : transactWrite i l (targetOf i a) d s = .next t) : Performs (writeOn l i a d) s t := by
  obtain ⟨hr, rfl⟩ := transactWrite_next.mp h
  exact ⟨_, _, .busWrite l i a d ((initiatorReady_iff i s).mp hr), rfl⟩

theorem performs_windowWrite {j : Instr} {i : Initiator} {l : Lanes} {g : Target} {d : Word} {s t : State}
    (h : transactWrite i l g d s = .next t) (hp : instrPlace j = initiatorPlace i) (hg : InRange g)
    (hr : ∀ r, g ≠ .reg r) : Performs j s t := by
  obtain ⟨hi, rfl⟩ := transactWrite_next.mp h
  exact ⟨_, _, .windowWrite i l g d hp ((initiatorReady_iff i s).mp hi) hg hr, rfl⟩

theorem performs_event {j : Instr} {s u t : State} (h : hostEvent s u = .next t)
    (p : HostTurn s → Performed j s u) : Performs j s t := by
  obtain ⟨ht, rfl⟩ := hostEvent_next.mp h
  exact ⟨_, _, p ((hostTurn_iff s).mp ht), rfl⟩

theorem performs_enabled {j : Instr} {s u t : State} {ok : Bool} {r : OpResult}
    (h : whenEnabled ok (setResult u r) = .next t) (p : ok = true → Performed j s u) : Performs j s t := by
  obtain ⟨ho, rfl⟩ := whenEnabled_next.mp h
  exact ⟨_, _, p ho, rfl⟩

theorem Performed.performs {j : Instr} {s u t : State} {r : OpResult} (p : Performed j s u)
    (h : Host.Outcome.next (φ := Fault) (ρ := Refusal) (setResult u r) = .next t) : Performs j s t :=
  ⟨u, r, p, (Host.Outcome.next.inj h).symm⟩

/-- An operation that answers a next state performed one of these. -/
theorem exec_next {j : Instr} {s t : State} (h : exec j s = .next t) : Performs j s t := by
  cases j
  case rd16 | rd8u | rd8l | irqenRd | irqstatRd | irqackRd | adapterRd | hperiodRd | hcounterRd | cmdreqRd | mbox0Rd
    | mbox1Rd | mbox2Rd | mbox3Rd | mbox4Rd | mbox5Rd | mbox6Rd | mbox7Rd | pwmctlRd | pwmcycRd | pwmlRd | pwmrRd
    | dreqctlRd | dreqsrchRd | dreqsrclRd | dreqdsthRd | dreqdstlRd | dreqlenRd | vdpmodeRd | vdpshiftRd | aflenRd
    | afaddrRd | afdataRd | fbctlRd | bootromRd | paletteRd | vramRd | sdramLoRd | sdramHiRd | reservedRd
    | externalRd =>
    unfold exec at h
    exact performs_read h rfl
  case wr16 => exact performs_busWrite (l := .word) h
  case wr8u => exact performs_busWrite (l := .upper) h
  case wr8l => exact performs_busWrite (l := .lower) h
  case busNoLane => exact nomatch h
  case irqenWr => exact performs_regWrite .irqen h
  case irqstatWr => exact performs_regWrite .irqstat h
  case irqackWr => exact performs_regWrite .irqack h
  case adapterWr => exact performs_regWrite .adapter h
  case hperiodWr => exact performs_regWrite .hperiod h
  case hcounterWr => exact performs_regWrite .hcounter h
  case cmdreqWr => exact performs_regWrite .cmdreq h
  case mbox0Wr => exact performs_regWrite (.mbox 0) h
  case mbox1Wr => exact performs_regWrite (.mbox 1) h
  case mbox2Wr => exact performs_regWrite (.mbox 2) h
  case mbox3Wr => exact performs_regWrite (.mbox 3) h
  case mbox4Wr => exact performs_regWrite (.mbox 4) h
  case mbox5Wr => exact performs_regWrite (.mbox 5) h
  case mbox6Wr => exact performs_regWrite (.mbox 6) h
  case mbox7Wr => exact performs_regWrite (.mbox 7) h
  case pwmctlWr => exact performs_regWrite .pwmctl h
  case pwmcycWr => exact performs_regWrite .pwmcyc h
  case pwmlWr => exact performs_regWrite .pwml h
  case pwmrWr => exact performs_regWrite .pwmr h
  case dreqctlWr => exact performs_regWrite .dreqctl h
  case dreqsrchWr => exact performs_regWrite .dreqsrch h
  case dreqsrclWr => exact performs_regWrite .dreqsrcl h
  case dreqdsthWr => exact performs_regWrite .dreqdsth h
  case dreqdstlWr => exact performs_regWrite .dreqdstl h
  case dreqlenWr => exact performs_regWrite .dreqlen h
  case vdpmodeWr => exact performs_regWrite .vdpmode h
  case vdpshiftWr => exact performs_regWrite .vdpshift h
  case aflenWr => exact performs_regWrite .aflen h
  case afaddrWr => exact performs_regWrite .afaddr h
  case afdataWr => exact performs_regWrite .afdata h
  case fbctlWr => exact performs_regWrite .fbctl h
  case bootromWr => exact performs_windowWrite h rfl trivial nofun
  case paletteWr off _ => exact performs_windowWrite h rfl (show _ < _ by omega) nofun
  case vramWr off _ => exact performs_windowWrite h rfl (show _ < _ by omega) nofun
  case sdramLoWr off _ => exact performs_windowWrite h rfl (show _ < _ by omega) nofun
  case sdramHiWr off _ => exact performs_windowWrite h rfl (show _ < _ by omega) nofun
  case reservedWr => exact performs_windowWrite h rfl trivial nofun
  case externalWr => exact performs_windowWrite h rfl trivial nofun
  case power => exact performs_event h (.power _)
  case restart => exact performs_event h .restart
  case unload => exact performs_event h .unload
  case vblank => exact performs_event h (.vblank _)
  case hblank => exact performs_event h (.hblank _)
  case scanline => exact performs_event h (.scanline _)
  case hostAdvance => exact performs_event h (.hostAdvance _)
  case hostSync => exact performs_event h .hostSync
  case coreStepM => exact performs_enabled h fun e => .coreStep .m ((coreEnabled_iff .m s).mp e)
  case coreStepS => exact performs_enabled h fun e => .coreStep .s ((coreEnabled_iff .s s).mp e)
  case syncResolve q =>
    obtain ⟨hq, ha, p, rest, hp, rfl⟩ := exec_syncResolve_next.mp h
    exact ⟨_, _, .syncResolve q p rest hq ha hp, rfl⟩
  case audioStep => exact performs_enabled h fun e => .audioStep ((audioEnabled_iff s).mp e)
  case pwmTimerStep => exact Performed.pwmTimerStep.performs h
  case sampleTick => exact Performed.sampleTick.performs h
  case fifoWrite thr ch v => exact (Performed.fifoWrite thr ch v).performs h
  case fifoRead ch => exact (Performed.fifoRead ch).performs h
  case fifoDrain ch => exact (Performed.fifoDrain ch).performs h
  case dreqStep => exact performs_enabled h .dreqStep
  case autofillStep => exact performs_enabled h .autofillStep
  case irqRaise thr c k => exact (Performed.irqRaise thr c k).performs h
  case irqQueryM => exact (Performed.irqQuery .m rfl).performs h
  case irqQueryS => exact (Performed.irqQuery .s rfl).performs h
  case irqDispatchM k => exact (Performed.irqDispatch .m k rfl).performs h
  case irqDispatchS k => exact (Performed.irqDispatch .s k rfl).performs h
  case latchCommit => exact Performed.latchCommit.performs h
  case fbCommit thr => exact (Performed.fbCommit thr).performs h
  case selectFb thr v => exact (Performed.selectFb thr v).performs h

end Sys2Proof.StateProofs
end

section
/-! The invariant of the block, kept by every step (10_state.md R72, R73). `Inv` is cut in two: what the units hold
(`BlockInv`), which every operation keeps by its own rule, and what the scheduler holds (`AgentInv`), which most
operations do not touch (`KeepsAgents`). -/

namespace Sys2Proof.StateProofs
open Sys2Proof.Machine Sys2Proof.Laws

/-! ### The two parts of the invariant -/

/-- The part of the invariant about memory, the units and the cores' registers; the last clause is asked for only
where `p` holds, which for `Inv` is between two operations. -/
structure BlockInv (p : Prop) (s : State) : Prop where
  mem : MemInv s
  dreq : DreqInv s.dreq
  autofill : s.vdp.autofillActive = true ↔ s.vdp.autofillRemaining ≠ 0
  pwm : PwmInv s.pwm
  held : p → s.io.adapterReset = true → ∀ c, (s.cores.get c).regs = entryRegs c

/-- The part of the invariant about the token, the queues, the deficits and the caller's buffer. -/
structure AgentInv (s : State) : Prop where
  deficits : ∀ c, DeficitInv c (s.cores.get c)
  holder : s.alive s.token = true
  queues : ∀ t, t ∉ s.pend.get t ∧ (s.pend.get t).length ≤ 3
  pixels : s.pixels.length = Config.pixbufLen

theorem inv_iff (s : State) : Inv s ↔ BlockInv (s.inside = none) s ∧ AgentInv s := by
  constructor
  · intro h
    refine ⟨⟨h.mem, h.dreq, h.autofill, h.pwm, h.held⟩, ⟨fun c => ?_, h.holder, h.queues, h.pixels⟩⟩
    cases c
    · exact h.coreM
    · exact h.coreS
  · rintro ⟨hb, ha⟩
    exact ⟨hb.mem, hb.dreq, hb.autofill, hb.pwm, ha.deficits .m, ha.deficits .s, ha.holder, ha.queues, ha.pixels,
      hb.held⟩

/-! ### What the scheduler's part rests on -/

/-- An operation that leaves the token, the queues, the existence of the agents, the caller's buffer and the operation
in progress, and every core's counters sound. -/
structure KeepsAgents (s t : State) : Prop where
  token : t.token = s.token
  pend : t.pend = s.pend
  alive : ∀ x, t.alive x = s.alive x
  deficits : ∀ c, DeficitInv c (s.cores.get c) → DeficitInv c (t.cores.get c)
  pixels : t.pixels = s.pixels
  inside : t.inside = s.inside

theorem KeepsAgents.trans {s t u : State} (a : KeepsAgents s t) (b : KeepsAgents t u) : KeepsAgents s u :=
  ⟨b.token.trans a.token, b.pend.trans a.pend, fun x => (b.alive x).trans (a.alive x),
    fun c h => b.deficits c (a.deficits c h), b.pixels.trans a.pixels, b.inside.trans a.inside⟩

theorem KeepsAgents.of_busKeeps {s t : State} (k : BusKeeps s t) : KeepsAgents s t :=
  ⟨k.token, k.pend, k.alive, fun c h =>
    ⟨(k.minSh2 c).trans h.minSh2, (k.minM68k c).trans h.minM68k, by rw [k.sh2, k.minSh2]; exact h.sh2,
      by rw [k.m68k, k.minM68k]; exact h.m68k⟩, k.pixels, k.inside⟩

theorem AgentInv.of_keeps {s t : State} (h : AgentInv s) (k : KeepsAgents s t) : AgentInv t where
  deficits c := k.deficits c (h.deficits c)
  holder := by rw [k.alive, k.token]; exact h.holder
  queues := by rw [k.pend]; exact h.queues
  pixels := by rw [k.pixels]; exact h.pixels

/-! ### What the units' part rests on -/

section
variable {p : Prop} {s t : State}

/-- An operation that changes none of the fields the units' part speaks of. -/
theorem BlockInv.of_same (h : BlockInv p s) (hmem : t.mem = s.mem) (hpow : t.powerOns = s.powerOns)
    (hdreq : t.dreq = s.dreq) (hact : t.vdp.autofillActive = s.vdp.autofillActive)
    (hrem : t.vdp.autofillRemaining = s.vdp.autofillRemaining) (hpwm : t.pwm = s.pwm)
    (hres : t.io.adapterReset = s.io.adapterReset) (hregs : ∀ c, (t.cores.get c).regs = (s.cores.get c).regs) :
    BlockInv p t where
  mem := ⟨by rw [hpow, hmem]; exact h.mem.form, by rw [hmem]; exact h.mem.writable⟩
  dreq := hdreq ▸ h.dreq
  autofill := by rw [hact, hrem]; exact h.autofill
  pwm := hpwm ▸ h.pwm
  held hp hr c := (hregs c).trans (h.held hp (hres.symm.trans hr) c)

theorem BlockInv.withDreq (h : BlockInv p s) {d : Dreq} (hd : DreqInv d) : BlockInv p { s with dreq := d } :=
  ⟨⟨h.mem.form, h.mem.writable⟩, hd, h.autofill, h.pwm, h.held⟩

theorem BlockInv.withPwm (h : BlockInv p s) {q : Pwm} (hq : PwmInv q) : BlockInv p { s with pwm := q } :=
  ⟨⟨h.mem.form, h.mem.writable⟩, h.dreq, h.autofill, hq, h.held⟩

theorem BlockInv.withVdp (h : BlockInv p s) {v : Vdp} (hv : v.autofillActive = true ↔ v.autofillRemaining ≠ 0) :
    BlockInv p { s with vdp := v } :=
  ⟨⟨h.mem.form, h.mem.writable⟩, h.dreq, hv, h.pwm, h.held⟩

theorem BlockInv.withFbSel (h : BlockInv p s) (b : Bool) : BlockInv p { s with fbSel := b } :=
  h.of_same rfl rfl rfl rfl rfl rfl rfl fun _ => rfl

theorem BlockInv.withLog (h : BlockInv p s) (e : List ExtEntry) : BlockInv p { s with extLog := e } :=
  h.of_same rfl rfl rfl rfl rfl rfl rfl fun _ => rfl

/-- Registers given to a core: sound while `adapterReset` is 0, or where they are those of its reset vector. -/
theorem BlockInv.withRegs (h : BlockInv p s) (c : CoreId) {r : CoreRegs}
    (hr : p → s.io.adapterReset = true → r = entryRegs c) : BlockInv p (setRegs s c r) where
  mem := ⟨h.mem.form, h.mem.writable⟩
  dreq := h.dreq
  autofill := h.autofill
  pwm := h.pwm
  held hp ha c' := by
    have hold := h.held hp ha c'
    by_cases hc : c' = c
    · subst hc
      simpa using hr hp ha
    · simpa [PerCore.get_set_other _ _ _ _ hc] using hold

theorem BlockInv.withIrq (h : BlockInv p s) (c : CoreId) (q : IrqCtl) : BlockInv p (setIrq s c q) :=
  h.of_same rfl rfl rfl rfl rfl rfl rfl fun c' => by cases c <;> cases c' <;> rfl

/-- A byte written to a writable location. -/
theorem memInv_writeByte (h : MemInv s) {a : Nat} (ha : Writable a) (b : Byte) : MemInv (writeByte s a b) where
  form := wf_write _ _ _ _ h.form
  writable e he := by
    rcases mem_write _ _ _ _ _ he with ⟨rfl, -⟩ | he
    · exact ha
    · exact h.writable e he

/-- A word written to a writable place. -/
theorem BlockInv.writeWord (h : BlockInv p s) (m : MemId) (w : Nat) (l : Lanes) (d : Word)
    (h0 : Writable (m.loc (2 * w))) (h1 : Writable (m.loc (2 * w + 1))) : BlockInv p (writeWord s m w l d) := by
  have hmem : MemInv (Machine.writeWord s m w l d) := by
    cases l
    · exact memInv_writeByte (memInv_writeByte h.mem h0 _) h1 _
    · exact memInv_writeByte h.mem h0 _
    · exact memInv_writeByte h.mem h1 _
  rw [writeWord_eq] at hmem ⊢
  exact ⟨hmem, h.dreq, h.autofill, h.pwm, h.held⟩

/-- A word written to the bank that is not displayed. -/
theorem BlockInv.writeBack (h : BlockInv p s) {w : Nat} (hw : w < 65536) (l : Lanes) (d : Word) :
    BlockInv p (Machine.writeWord s (backBank s) w l d) := by
  unfold backBank
  split
  · exact h.writeWord _ _ _ _ (by simp only [MemId.loc, MemId.base, Writable]; omega)
      (by simp only [MemId.loc, MemId.base, Writable]; omega)
  · exact h.writeWord _ _ _ _ (by simp only [MemId.loc, MemId.base, Writable]; omega)
      (by simp only [MemId.loc, MemId.base, Writable]; omega)

/-! ### The named operations -/

theorem BlockInv.fbCommit (h : BlockInv p s) : BlockInv p (fbCommit s) := by
  rw [fbCommit_eq]
  exact h.withFbSel _

theorem BlockInv.selectFb (h : BlockInv p s) (v : Bool) : BlockInv p (selectFb v s) :=
  BlockInv.fbCommit (h.withVdp h.autofill)

theorem BlockInv.irqRaise (h : BlockInv p s) (c : CoreId) (k : Source) : BlockInv p (irqRaise c k s) := h.withIrq _ _

theorem BlockInv.irqRaiseBoth (h : BlockInv p s) (k : Source) : BlockInv p (irqRaiseBoth k s) :=
  (h.irqRaise .m k).irqRaise .s k

/-- Interrupt entry gives a core registers of the engine, so it is sound while `adapterReset` is 0 only. -/
theorem BlockInv.irqDispatch (h : BlockInv p s) (hp : p → s.io.adapterReset = false) (c : CoreId) (k : Source) :
    BlockInv p (irqDispatch c k s).2 := by
  obtain ⟨e, r, he⟩ := irqDispatch_changes c k s
  rw [he]
  refine (h.withLog e).withRegs c fun hp' ha => ?_
  have hlow : s.io.adapterReset = true := ha
  rw [hp hp'] at hlow
  exact nomatch hlow

theorem BlockInv.takeInterrupt (h : BlockInv p s) (hp : p → s.io.adapterReset = false) (c : CoreId) :
    BlockInv p (takeInterrupt c s).2 := by
  unfold Machine.takeInterrupt
  split
  · split
    · exact h.irqDispatch hp _ _
    · exact h
  · exact h

/-! ### The units -/

theorem periodsOf_pos (timer : BitVec 4) : 0 < periodsOf timer := by
  unfold periodsOf
  split
  · decide
  · next h => bv_omega

theorem pwmInv_fifoPush {q : Pwm} (h : PwmInv q) (ch : Channel) (v : BitVec 12) :
    PwmInv { q with fifo := q.fifo.set ch (fifoPush (q.fifo.get ch) v) } := by
  cases ch
  · exact ⟨fifoPush_length _ _ h.fifoL, h.fifoR, h.periods, h.counter⟩
  · exact ⟨h.fifoL, fifoPush_length _ _ h.fifoR, h.periods, h.counter⟩

theorem BlockInv.fifoWrite (h : BlockInv p s) (ch : Channel) (v : BitVec 12) : BlockInv p (fifoWrite ch v s) :=
  h.withPwm (pwmInv_fifoPush h.pwm ch v)

theorem BlockInv.pwmctlWrite (h : BlockInv p s) (l : Lanes) (d : Word) : BlockInv p (pwmctlWrite l d s) := by
  have lower : PwmInv (pwmctlLower d s.pwm) := ⟨h.pwm.fifoL, h.pwm.fifoR, h.pwm.periods, h.pwm.counter⟩
  have upper {q : Pwm} (hq : PwmInv q) : PwmInv (pwmctlUpper d q) := ⟨hq.fifoL, hq.fifoR, rfl, periodsOf_pos _⟩
  cases l
  · exact h.withPwm (upper lower)
  · exact h.withPwm (upper h.pwm)
  · exact h.withPwm lower

theorem BlockInv.sampleWrite (h : BlockInv p s) (ch : Channel) (l : Lanes) (d : Word) :
    BlockInv p (sampleWrite ch l d s) := by
  unfold Machine.sampleWrite
  split
  · exact h.fifoWrite _ _
  · exact h

theorem BlockInv.adapterWrite (h : BlockInv p s) (l : Lanes) (d : Word) : BlockInv p (adapterWrite l d s) := by
  unfold Machine.adapterWrite
  split
  · dsimp only
    split
    · have unlisted : BootUnlisted s.mem := bootUnlisted_of_memInv h.mem
      rw [loadBoth_boot]
      on_goal 2 => exact unlisted
      exact ⟨⟨h.mem.form, h.mem.writable⟩, h.dreq, h.autofill, h.pwm, fun _ _ c => by cases c <;> rfl⟩
    · next hedge =>
      refine ⟨⟨h.mem.form, h.mem.writable⟩, h.dreq, h.autofill, h.pwm, fun hp hd c => h.held hp ?_ c⟩
      have hbit : d.getLsbD 1 = true := hd
      simpa [hbit] using hedge
  · exact h

theorem BlockInv.cmdreqWrite (h : BlockInv p s) (l : Lanes) (d : Word) : BlockInv p (cmdreqWrite l d s) := by
  have raise {u : State} (hu : BlockInv p u) (b : Bool) (c : CoreId) :
      BlockInv p (if b then Machine.irqRaise c .cmd u else u) := by
    cases b
    · exact hu
    · exact hu.irqRaise _ _
  unfold Machine.cmdreqWrite
  split
  · exact raise (raise h _ _) _ _
  · exact h

theorem BlockInv.updateBanked (h : BlockInv p s) (i : Initiator) (f : IrqCtl → IrqCtl) :
    BlockInv p (updateBanked i f s) := by
  unfold Machine.updateBanked
  split
  · exact h.withIrq _ _
  · exact h

theorem BlockInv.dreqctlWrite (h : BlockInv p s) (l : Lanes) (d : Word) : BlockInv p (dreqctlWrite l d s) := by
  unfold Machine.dreqctlWrite
  split
  · next hidle =>
    have idle : s.dreq.active = false := by simpa using (Bool.and_eq_true_iff.mp hidle).2
    dsimp only
    split
    · next hstart =>
      have words : s.dreq.length ≠ 0 := by simpa using (Bool.and_eq_true_iff.mp hstart).2
      exact h.withDreq ⟨rfl, fun _ => words, h.dreq.fifo⟩
    · exact h.withDreq ⟨h.dreq.dma, h.dreq.words, h.dreq.fifo⟩
  · exact h

/-- A DREQ register is written while no transfer is active only. -/
theorem BlockInv.dreqFieldWrite (h : BlockInv p s) {f : Dreq → Dreq}
    (hf : ∀ q, (f q).dma = q.dma ∧ (f q).active = q.active ∧ (f q).fifo = q.fifo) :
    BlockInv p (dreqFieldWrite f s) := by
  unfold Machine.dreqFieldWrite
  split
  · exact h
  · next hidle =>
    obtain ⟨hdma, hact, hfifo⟩ := hf s.dreq
    exact h.withDreq ⟨by rw [hdma, hact]; exact h.dreq.dma, fun ha => absurd (hact ▸ ha) hidle,
      hfifo.trans h.dreq.fifo⟩

theorem BlockInv.afdataWrite (h : BlockInv p s) (l : Lanes) (d : Word) : BlockInv p (afdataWrite l d s) := by
  unfold Machine.afdataWrite
  split
  · exact h
  · refine h.withVdp ?_
    dsimp only
    split
    · exact h.autofill
    · next hlen => exact ⟨fun _ => hlen, fun _ => rfl⟩

/-- Every register write keeps the units' part. -/
theorem BlockInv.regWrite (h : BlockInv p s) (i : Initiator) (r : Reg) (l : Lanes) (d : Word) :
    BlockInv p (regWrite i r l d s) := by
  cases r
  case irqen => exact iteInduction (fun _ => h.updateBanked _ _) fun _ => h
  case irqack => exact iteInduction (fun _ => h.updateBanked _ _) fun _ => h
  case irqstat | hcounter => exact h
  case adapter => exact h.adapterWrite l d
  case hperiod | mbox => exact h.of_same rfl rfl rfl rfl rfl rfl rfl fun _ => rfl
  case cmdreq => exact h.cmdreqWrite l d
  case pwmctl => exact h.pwmctlWrite l d
  case pwmcyc => exact h.withPwm ⟨h.pwm.fifoL, h.pwm.fifoR, h.pwm.periods, h.pwm.counter⟩
  case pwml | pwmr => exact h.sampleWrite _ l d
  case dreqctl => exact h.dreqctlWrite l d
  case dreqsrch | dreqsrcl | dreqdsth | dreqdstl | dreqlen =>
    unfold Machine.regWrite
    exact h.dreqFieldWrite fun _ => ⟨rfl, rfl, rfl⟩
  case vdpmode | vdpshift | aflen => exact iteInduction (fun _ => h.withVdp h.autofill) fun _ => h
  case afaddr => exact iteInduction (fun _ => h) fun _ => h.withVdp h.autofill
  case afdata => exact h.afdataWrite l d
  case fbctl => exact iteInduction (fun _ => h.selectFb _) fun _ => h

/-- A write that reaches a place of the map keeps the units' part. -/
theorem BlockInv.targetWrite (h : BlockInv p s) (i : Initiator) (l : Lanes) {g : Target} (hg : InRange g) (d : Word) :
    BlockInv p (targetWrite i l g d s) := by
  cases g
  case bootrom | reserved => exact h
  case reg => exact h.regWrite _ _ _ _
  case palette idx =>
    have hidx : idx < 256 := hg
    exact h.writeWord _ _ _ _ (by simp only [MemId.loc, MemId.base, Writable]; omega)
      (by simp only [MemId.loc, MemId.base, Writable]; omega)
  case vram idx => exact h.writeBack hg l d
  case sdram idx =>
    have hidx : idx < 131072 := hg
    exact h.writeWord _ _ _ _ (by simp only [MemId.loc, MemId.base, Writable]; omega)
      (by simp only [MemId.loc, MemId.base, Writable]; omega)
  case external => exact h.withLog _

theorem BlockInv.targetRead (h : BlockInv p s) (i : Initiator) (l : Lanes) (g : Target) :
    BlockInv p (targetRead i l g s).2 := by
  rw [targetRead_eq]
  exact h.withLog _

theorem BlockInv.busWrite (h : BlockInv p s) (i : Initiator) (l : Lanes) (a : Long) (d : Word) :
    BlockInv p (busWrite i l a d s).2 := h.targetWrite i l (inRange_targetOf i a) d

/-! ### Steps of the engines -/

theorem BlockInv.dreqStep (h : BlockInv p s) : BlockInv p (dreqStep s) := by
  obtain ⟨e, he⟩ := busRead_changes .dreq .word (dreqAddr s.dreq.source) s
  have advance {u : State} (hu : BlockInv p u) : BlockInv p (dreqAdvance u) := by
    rw [dreqAdvance_eq]
    refine ⟨⟨hu.mem.form, hu.mem.writable⟩, ⟨?_, fun ha => ?_, hu.dreq.fifo⟩, hu.autofill, hu.pwm, hu.held⟩
    · exact congrArg (· && _) hu.dreq.dma
    · simpa using (Bool.and_eq_true_iff.mp ha).2
  unfold Machine.dreqStep
  dsimp only
  rw [he, dreqThrough_empty]
  on_goal 2 => exact h.dreq.fifo
  refine advance ?_
  unfold dreqStore
  split
  · exact (h.withLog e).writeBack (Nat.mod_lt _ (by decide)) _ _
  · exact (h.withLog e).busWrite _ _ _ _

theorem BlockInv.autofillStep (h : BlockInv p s) (ha : s.vdp.autofillActive = true) :
    BlockInv p (autofillStep s) := by
  have written : BlockInv p (Machine.writeWord s (backBank s) (s.vdp.autofillAddress.toNat % Config.bankWords) .word
      s.vdp.autofillData) := h.writeBack (Nat.mod_lt _ (by decide)) _ _
  have active : (Machine.writeWord s (backBank s) (s.vdp.autofillAddress.toNat % Config.bankWords) .word
      s.vdp.autofillData).vdp.autofillActive = true := by rw [writeWord_eq]; exact ha
  unfold Machine.autofillStep
  rw [autofillAdvance_eq]
  refine ⟨⟨written.mem.form, written.mem.writable⟩, written.dreq, ?_, written.pwm, written.held⟩
  simp [active]

theorem pwmInv_pwmAfterTick {q : Pwm} (h : PwmInv q) (dc : PerChannel FilterState) : PwmInv (pwmAfterTick q dc) :=
  ⟨(fifoAfter_length_le _ _).trans h.fifoL, (fifoAfter_length_le _ _).trans h.fifoR, h.periods, h.counter⟩

theorem BlockInv.sampleTick (h : BlockInv p s) : BlockInv p (sampleTick s) := by
  obtain ⟨dc, pair, e⟩ := sampleTick_eq s
  have ticked : BlockInv p (afterTick s dc pair) :=
    ⟨⟨h.mem.form, h.mem.writable⟩, h.dreq, h.autofill, pwmInv_pwmAfterTick h.pwm dc, h.held⟩
  rw [e]
  exact iteInduction (motive := BlockInv p) (fun _ => ticked.irqRaiseBoth _) fun _ => ticked

theorem BlockInv.pwmTimerStep (h : BlockInv p s) : BlockInv p (pwmTimerStep s) := by
  unfold Machine.pwmTimerStep
  dsimp only
  split
  · refine BlockInv.sampleTick (h.withPwm ⟨h.pwm.fifoL, h.pwm.fifoR, h.pwm.periods, ?_⟩)
    exact h.pwm.periods ▸ periodsOf_pos _
  · next hlt => exact h.withPwm ⟨h.pwm.fifoL, h.pwm.fifoR, h.pwm.periods, BitVec.not_le.mp hlt⟩

theorem BlockInv.audioBody (h : BlockInv p s) : BlockInv p (audioBody s) :=
  audioBody_induction h.pwmTimerStep (fun _ => h.pwmTimerStep.dreqStep) fun ht ha => ht.autofillStep ha

/-! ### A core's step -/

/-- A normal step ends with the registers the engine gives while `adapterReset` is 0, and with those loaded at the edge
where the instruction itself made it (40_scheduler.md R152, 46_io_mailbox.md R341). -/
theorem BlockInv.normalStep (h : BlockInv p s) (hr : s.io.adapterReset = false) (c : CoreId) :
    BlockInv p (normalStep c s).2 := by
  have entered := h.takeInterrupt (fun _ => hr) c
  have hr1 : (Machine.takeInterrupt c s).2.io.adapterReset = false := by
    obtain ⟨e, r, he⟩ := takeInterrupt_changes c s
    rw [he]
    exact hr
  unfold Machine.normalStep
  dsimp only
  generalize (Machine.takeInterrupt c s).1 = w
  generalize (Machine.takeInterrupt c s).2 = u at entered hr1 ⊢
  have ran : BlockInv p (runProgram c (Config.engineExec (u.cores.get c).regs) w u).2.2 :=
    runProgram_preserves c (fun e _ hu => hu.withLog e) (fun l a d _ hu => hu.busWrite _ l a d) _ _ entered
  rcases hb : reloadsDuring c (Config.engineExec (u.cores.get c).regs) u
  · refine ran.withRegs c fun _ ha => ?_
    rw [runProgram_adapterReset c _ w u hr1 hb] at ha
    exact nomatch ha
  · exact ran

theorem BlockInv.coreStep (h : BlockInv p s) (c : CoreId) : BlockInv p (coreStep c s) := by
  have body : BlockInv p (coreBody c s).2 := by
    unfold coreBody
    split
    · exact h
    · next hr =>
      split
      · exact h
      · exact h.normalStep (Bool.eq_false_iff.mpr hr) c
  exact body.of_same rfl rfl rfl rfl rfl rfl rfl fun c' => by cases c <;> cases c' <;> rfl

/-! ### The scheduler and the events -/

theorem BlockInv.setPend (h : BlockInv p s) (q : Agent) (l : List Agent) : BlockInv p (setPend s q l) :=
  h.of_same rfl rfl rfl rfl rfl rfl rfl fun _ => rfl

theorem BlockInv.tick (h : BlockInv p s) (q : Agent) (n : Nat) : BlockInv p (tick q n s) :=
  h.of_same rfl rfl rfl rfl rfl rfl rfl fun _ => rfl

theorem BlockInv.audioStep (h : BlockInv p s) : BlockInv p (audioStep s) := (h.audioBody.tick _ _).setPend _ _

theorem BlockInv.syncResolve (h : BlockInv p s) (q x : Agent) (rest : List Agent) :
    BlockInv p (syncResolve q x rest s) := by
  unfold Machine.syncResolve
  split
  · exact h.of_same rfl rfl rfl rfl rfl rfl rfl fun _ => rfl
  · exact h.setPend _ _

theorem BlockInv.restart (h : BlockInv p s) : BlockInv p (restart s) := by
  have dropped : BlockInv p { s with pend := ⟨[], [], [], []⟩, token := .h } :=
    h.of_same rfl rfl rfl rfl rfl rfl rfl fun _ => rfl
  exact iteInduction (motive := BlockInv p) (fun _ => dropped.irqRaiseBoth _) fun _ => dropped

theorem BlockInv.unload (h : BlockInv p s) : BlockInv p (unload s) :=
  h.of_same rfl rfl rfl rfl rfl rfl rfl fun _ => rfl

theorem BlockInv.latchCommit (h : BlockInv p s) : BlockInv p (latchCommit s) := h.withVdp h.autofill

theorem BlockInv.vblankEvent (h : BlockInv p s) (b : Bool) : BlockInv p (vblankEvent b s) := by
  have level : BlockInv p { s with vdp := { s.vdp with vblank := b } } := h.withVdp h.autofill
  exact iteInduction (motive := BlockInv p) (fun _ => level.latchCommit.fbCommit.irqRaiseBoth _) fun _ => level

theorem BlockInv.hblankEvent (h : BlockInv p s) (b : Bool) : BlockInv p (hblankEvent b s) := by
  have level (n : BitVec 16) : BlockInv p
      { s with vdp := { s.vdp with hblank := b }, io := { s.io with hcounter := n } } :=
    h.of_same rfl rfl rfl rfl rfl rfl rfl fun _ => rfl
  exact iteInduction (motive := BlockInv p)
    (fun _ => iteInduction (motive := BlockInv p) (fun _ => (level _).irqRaiseBoth _) fun _ => level _)
    fun _ => level s.io.hcounter

/-- A channel after a sample of the FIFO's, which is no longer than it was. -/
theorem BlockInv.setChannel (h : BlockInv p s) (ch : Channel) {f : List (BitVec 12)}
    (hf : f.length ≤ (s.pwm.fifo.get ch).length) (v : BitVec 12) : BlockInv p (setChannel s ch f v) := by
  refine h.withPwm ?_
  cases ch
  · exact ⟨hf.trans h.pwm.fifoL, h.pwm.fifoR, h.pwm.periods, h.pwm.counter⟩
  · exact ⟨h.pwm.fifoL, hf.trans h.pwm.fifoR, h.pwm.periods, h.pwm.counter⟩

theorem BlockInv.fifoRead (h : BlockInv p s) (ch : Channel) : BlockInv p (fifoRead ch s).2.2 := by
  rw [fifoRead_eq]
  exact h.setChannel ch (by simp) _

theorem BlockInv.fifoDrain (h : BlockInv p s) (ch : Channel) : BlockInv p (fifoDrain ch s).2.2 := by
  rw [fifoDrain_eq]
  exact h.setChannel ch (Nat.zero_le _) _

end

end Sys2Proof.StateProofs
end

section
/-! The scheduler's part of the invariant, operation by operation, and the step lemma of the whole invariant. -/

namespace Sys2Proof.StateProofs
open Sys2Proof.Machine Sys2Proof.Laws

/-! ### Operations that leave the agents alone -/

theorem irqRaiseBoth_keepsAgents (k : Source) (s : State) : KeepsAgents s (irqRaiseBoth k s) :=
  .of_busKeeps (irqRaiseBoth_keeps k s)

theorem sampleTick_keepsAgents (s : State) : KeepsAgents s (sampleTick s) := by
  obtain ⟨dc, pair, e⟩ := sampleTick_eq s
  have ticked : KeepsAgents s (afterTick s dc pair) := ⟨rfl, rfl, fun _ => rfl, fun _ h => h, rfl, rfl⟩
  rw [e]
  exact iteInduction (motive := KeepsAgents s) (fun _ => ticked.trans (irqRaiseBoth_keepsAgents _ _)) fun _ => ticked

theorem pwmTimerStep_keepsAgents (s : State) : KeepsAgents s (pwmTimerStep s) := by
  have counted (q : Pwm) : KeepsAgents s { s with pwm := q } := ⟨rfl, rfl, fun _ => rfl, fun _ h => h, rfl, rfl⟩
  exact iteInduction (motive := KeepsAgents s) (fun _ => (counted _).trans (sampleTick_keepsAgents _))
    fun _ => counted _

theorem audioBody_keepsAgents (s : State) : KeepsAgents s (audioBody s) :=
  audioBody_induction (pwmTimerStep_keepsAgents s)
    (fun _ => (pwmTimerStep_keepsAgents s).trans (.of_busKeeps (dreqStep_keeps _)))
    fun ht _ => ht.trans (.of_busKeeps (autofillStep_keeps _))

theorem latchCommit_keepsAgents (s : State) : KeepsAgents s (latchCommit s) :=
  ⟨rfl, rfl, fun _ => rfl, fun _ h => h, rfl, rfl⟩

theorem vblankEvent_keepsAgents (b : Bool) (s : State) : KeepsAgents s (vblankEvent b s) := by
  have level : KeepsAgents s { s with vdp := { s.vdp with vblank := b } } :=
    ⟨rfl, rfl, fun _ => rfl, fun _ h => h, rfl, rfl⟩
  exact iteInduction (motive := KeepsAgents s)
    (fun _ => level.trans ((latchCommit_keepsAgents _).trans
      ((KeepsAgents.of_busKeeps (fbCommit_keeps _)).trans (irqRaiseBoth_keepsAgents _ _)))) fun _ => level

theorem hblankEvent_keepsAgents (b : Bool) (s : State) : KeepsAgents s (hblankEvent b s) := by
  have level (io : Io) : KeepsAgents s { s with vdp := { s.vdp with hblank := b }, io := io } :=
    ⟨rfl, rfl, fun _ => rfl, fun _ h => h, rfl, rfl⟩
  exact iteInduction (motive := KeepsAgents s)
    (fun _ => iteInduction (motive := KeepsAgents s) (fun _ => (level _).trans (irqRaiseBoth_keepsAgents _ _))
      fun _ => level _) fun _ => level _

theorem tick_keepsAgents (q : Agent) (n : Nat) (s : State) : KeepsAgents s (tick q n s) :=
  ⟨rfl, rfl, fun x => by cases x <;> rfl, fun _ h => h, rfl, rfl⟩

/-! ### Operations that change the token, a queue or the deficits -/

section
variable {s : State}

theorem AgentInv.withToken (h : AgentInv s) {q : Agent} (hq : s.alive q = true) : AgentInv { s with token := q } where
  deficits := h.deficits
  holder := by cases q <;> exact hq
  queues := h.queues
  pixels := h.pixels

theorem AgentInv.withPend (h : AgentInv s) {q : Agent} {l : List Agent} (hl : q ∉ l ∧ l.length ≤ 3) :
    AgentInv (setPend s q l) where
  deficits := h.deficits
  holder := by
    have alive (x : Agent) : (setPend s q l).alive x = s.alive x := by cases x <;> rfl
    rw [alive]
    exact h.holder
  queues x := by
    by_cases hx : x = q
    · subst hx
      simpa using hl
    · simpa [PerAgent.get_set_other _ _ _ _ hx] using h.queues x
  pixels := h.pixels

/-- `SyncCheck` leaves each deficit 0 or below its threshold (40_scheduler.md R156). -/
theorem deficitInv_checked (c : CoreId) {k : CoreState} (h2 : k.minCyclesBetweenSh2Syncs = Config.cfgMinSh2 c)
    (hm : k.minCyclesBetweenM68kSyncs = Config.cfgMinM68k c) :
    DeficitInv c { k with
      cyclesUntilSh2Sync := if sh2Due k then 0 else k.cyclesUntilSh2Sync
      cyclesUntilM68kSync := if m68kDue k then 0 else k.cyclesUntilM68kSync } where
  minSh2 := h2
  minM68k := hm
  sh2 := by
    by_cases hd : sh2Due k = true
    · exact .inl (if_pos hd)
    · refine .inr ?_
      rw [if_neg hd]
      exact BitVec.not_le.mp fun hle => hd (decide_eq_true hle)
  m68k := by
    by_cases hd : m68kDue k = true
    · exact .inl (if_pos hd)
    · refine .inr ?_
      rw [if_neg hd]
      exact BitVec.not_le.mp fun hle => hd (decide_eq_true hle)

/-- The partners a core queues: not itself, and three at most (40_scheduler.md R156). -/
theorem partners_sound (c : CoreId) (sh2 m68k : Bool) :
    c.agent ∉ (if sh2 then sh2Partners c else []) ++ (if m68k then [.h] else []) ∧
      ((if sh2 then sh2Partners c else []) ++ (if m68k then [Agent.h] else [])).length ≤ 3 := by
  revert sh2 m68k
  cases c <;> decide

theorem AgentInv.syncCheck_advanceCore (h : AgentInv s) (c : CoreId) (n : Nat) :
    AgentInv (syncCheck c (advanceCore c n s)) := by
  unfold syncCheck
  refine AgentInv.withPend ?_ (partners_sound c _ _)
  refine h.of_keeps ⟨rfl, rfl, fun x => by cases x <;> rfl, fun c' hc' => ?_, rfl, rfl⟩
  by_cases hc : c' = c
  · subst hc
    have advanced : (advanceCore c' n s).cores.get c' = addDeficits (s.cores.get c') n := by
      simp [advanceCore, tick]
    rw [setCore_cores, PerCore.get_set_same, advanced]
    exact deficitInv_checked c' hc'.minSh2 hc'.minM68k
  · simpa [advanceCore, tick, PerCore.get_set_other _ _ _ _ hc] using hc'

theorem AgentInv.coreStep (h : AgentInv s) (c : CoreId) : AgentInv (coreStep c s) := by
  unfold Machine.coreStep
  exact (h.of_keeps (.of_busKeeps (coreBody_keeps c s))).syncCheck_advanceCore c _

theorem AgentInv.syncResolve (h : AgentInv s) {q p : Agent} {rest : List Agent} (hp : s.pend.get q = p :: rest) :
    AgentInv (syncResolve q p rest s) := by
  obtain ⟨hself, hlen⟩ := h.queues q
  rw [hp] at hself hlen
  unfold Machine.syncResolve
  split
  · next hc => exact h.withToken (Bool.and_eq_true_iff.mp hc).1
  · exact h.withPend ⟨fun hm => hself (List.mem_cons_of_mem _ hm), Nat.le_of_succ_le hlen⟩

theorem AgentInv.audioStep (h : AgentInv s) : AgentInv (audioStep s) :=
  (h.of_keeps ((audioBody_keepsAgents s).trans (tick_keepsAgents _ _ _))).withPend (by decide)

theorem AgentInv.restart (h : AgentInv s) : AgentInv (restart s) := by
  have dropped : AgentInv { s with pend := ⟨[], [], [], []⟩, token := .h } :=
    ⟨h.deficits, rfl, fun x => by cases x <;> exact ⟨nofun, Nat.zero_le _⟩, h.pixels⟩
  exact iteInduction (motive := AgentInv) (fun _ => dropped.of_keeps (irqRaiseBoth_keepsAgents _ _)) fun _ => dropped

theorem AgentInv.unload (h : AgentInv s) : AgentInv (unload s) :=
  ⟨h.deficits, rfl, fun x => by cases x <;> exact ⟨nofun, Nat.zero_le _⟩, h.pixels⟩

/-- The counters of a core after `POWER`. -/
theorem deficitInv_reset (c : CoreId) : DeficitInv c (.reset c) := ⟨rfl, rfl, .inl rfl, .inl rfl⟩

theorem agentInv_powerFields (hpx : s.pixels.length = Config.pixbufLen) (r : Bool) : AgentInv (powerFields r s) where
  deficits c := by cases c <;> exact deficitInv_reset _
  holder := rfl
  queues x := by cases x <;> exact ⟨nofun, Nat.zero_le _⟩
  pixels := hpx

/-! ### `POWER` -/

/-- After `POWER` every listed byte is a writable one that was listed before. -/
theorem memInv_powerFields (h : MemInv s) (r : Bool) : MemInv (powerFields r s) where
  form := wf_powerMem r s h.form
  writable e he := by
    cases r
    · exact nomatch he
    · exact h.writable e (List.mem_filter.mp he).1

/-- `POWER` unlists the boot ROMs. -/
theorem bootUnlisted_powerMem (r : Bool) (s : State) : BootUnlisted (powerMem r s) := by
  intro e he
  cases r
  · exact nomatch he
  · simpa [isBootLoc] using (List.mem_filter.mp he).2

/-- `POWER` is its fields with both cores at their reset vectors. -/
theorem power_eq (r : Bool) (s : State) : power r s = powerFields r s := by
  have unlisted : BootUnlisted (powerFields r s).mem := bootUnlisted_powerMem r s
  rw [power, loadBoth_boot unlisted]
  rfl

theorem inv_power (h : Inv s) (r : Bool) : Inv (power r s) := by
  rw [power_eq]
  refine (inv_iff _).mpr ⟨⟨memInv_powerFields h.mem r, ⟨rfl, nofun, rfl⟩, ⟨nofun, nofun⟩, ?_, ?_⟩,
    agentInv_powerFields h.pixels r⟩
  · exact ⟨Nat.zero_le _, Nat.zero_le _, rfl, (by decide : (0 : BitVec 32) < 16)⟩
  · exact fun _ _ c => by cases c <;> rfl

/-! ### The caller's buffer (43_vdp.md R256, R260, R261) -/

/-- A line plotted over the buffer leaves its length, where the line is no longer than the buffer. -/
theorem plotLine_length (priority : Bool) {colours : List Word} {px : List (BitVec 32)}
    (hc : 4 * colours.length ≤ px.length) : (plotLine priority colours px).length = px.length := by
  have plotted : (colours.flatMap (plot priority)).length = 4 * colours.length := by
    simp [List.length_flatMap, plot, Nat.mul_comm]
  rw [plotLine, List.length_append, plotted, List.length_drop]
  omega

theorem rleColours_length_le (s : State) (spans a left : Nat) : (rleColours s spans a left).length ≤ left := by
  induction spans generalizing a left with
  | zero => exact Nat.zero_le _
  | succ n ih =>
    unfold rleColours
    split
    · exact Nat.zero_le _
    · have rest := ih (a + 1) (left - min ((hiByte (fbWord s a)).toNat + 1) left)
      simp only [List.length_append, List.length_replicate]
      omega

theorem scanlineOf_length (s : State) (y : Nat) {px : List (BitVec 32)} (hp : px.length = Config.pixbufLen) :
    (scanlineOf s y px).length = Config.pixbufLen := by
  have room {colours : List Word} (hc : colours.length ≤ 320) : 4 * colours.length ≤ px.length := by
    rw [hp]
    show _ ≤ 1280
    omega
  unfold scanlineOf
  split
  · exact hp
  · dsimp only
    split
    · exact hp
    · rw [plotLine_length _ (room (by simp [renderPacked, linePixels]))]
      exact hp
    · rw [plotLine_length _ (room (by simp [renderDirect, linePixels]))]
      exact hp
    · rw [plotLine_length _ (room (colours := renderRle s _) (rleColours_length_le s linePixels _ linePixels))]
      exact hp

/-! ### Every step -/

/-- An operation that keeps the units' part and leaves the agents alone keeps the invariant. -/
theorem inv_of_keeps {u : State} (h : Inv s) (k : KeepsAgents s u)
    (hb : BlockInv (s.inside = none) s → BlockInv (s.inside = none) u) : Inv u ∧ u.inside = s.inside := by
  obtain ⟨hblock, hagents⟩ := (inv_iff s).mp h
  refine ⟨(inv_iff u).mpr ⟨?_, hagents.of_keeps k⟩, k.inside⟩
  rw [k.inside]
  exact hb hblock

/-- An operation of the scheduler, which leaves the units and the cores' registers alone. -/
theorem inv_of_agents {u : State} (h : Inv s) (hi : u.inside = s.inside)
    (hb : BlockInv (s.inside = none) s → BlockInv (s.inside = none) u) (ha : AgentInv s → AgentInv u) :
    Inv u ∧ u.inside = s.inside := by
  obtain ⟨hblock, hagents⟩ := (inv_iff s).mp h
  refine ⟨(inv_iff u).mpr ⟨?_, ha hagents⟩, hi⟩
  rw [hi]
  exact hb hblock

/-- What an operation performs keeps the invariant, but for interrupt entry outside a normal step. -/
theorem inv_performed {j : Instr} {u : State} (hj : Performed j s u) (h : Inv s)
    (hd : ∀ c, instrPlace j = .within [.normalStep c] → s.inside ≠ none) :
    Inv u ∧ (s.inside = none → u.inside = none) := by
  have same {v : State} (hv : Inv v ∧ v.inside = s.inside) : Inv v ∧ (s.inside = none → v.inside = none) :=
    ⟨hv.1, fun hi => hv.2.trans hi⟩
  have busOnly {v : State} (k : BusKeeps s v) (hb : BlockInv (s.inside = none) s → BlockInv (s.inside = none) v) :=
    same (inv_of_keeps h (.of_busKeeps k) hb)
  have unitOnly {v : State} (k : KeepsAgents s v) (hb : BlockInv (s.inside = none) s → BlockInv (s.inside = none) v) :=
    same (inv_of_keeps h k hb)
  have agents {v : State} (hi : v.inside = s.inside)
      (hb : BlockInv (s.inside = none) s → BlockInv (s.inside = none) v) (ha : AgentInv s → AgentInv v) :=
    same (inv_of_agents h hi hb ha)
  cases hj with
  | read i l g _ _ => exact busOnly (targetRead_keeps i l g s) (·.targetRead i l g)
  | regWrite r i l d _ => exact busOnly (regWrite_keeps i r l d s) (·.regWrite i r l d)
  | busWrite l i a d _ => exact busOnly (targetWrite_keeps i l _ d s) (·.targetWrite i l (inRange_targetOf i a) d)
  | windowWrite i l g d _ _ hg _ => exact busOnly (targetWrite_keeps i l g d s) (·.targetWrite i l hg d)
  | power r _ => exact ⟨inv_power h r, fun _ => by rw [power_eq]; rfl⟩
  | restart _ => exact agents (by unfold restart; dsimp only; split <;> rfl) (·.restart) (·.restart)
  | unload _ => exact agents rfl (·.unload) (·.unload)
  | vblank b _ => exact unitOnly (vblankEvent_keepsAgents b s) (·.vblankEvent b)
  | hblank b _ => exact unitOnly (hblankEvent_keepsAgents b s) (·.hblankEvent b)
  | scanline y _ =>
    have block (hb : BlockInv (s.inside = none) s) :
        BlockInv (s.inside = none) { s with pixels := scanlineOf s y.toNat s.pixels } :=
      hb.of_same rfl rfl rfl rfl rfl rfl rfl fun _ => rfl
    exact agents rfl block fun ha => ⟨ha.deficits, ha.holder, ha.queues, scanlineOf_length s y.toNat ha.pixels⟩
  | hostAdvance n _ => exact unitOnly (tick_keepsAgents .h n.toNat s) (·.tick _ _)
  | hostSync _ => exact agents rfl (·.setPend _ _) (·.withPend (by decide))
  | coreStep c _ => exact agents (coreBody_keeps c s).inside (·.coreStep c) (·.coreStep c)
  | syncResolve q p rest _ _ hp =>
    exact agents (by unfold syncResolve; split <;> rfl) (·.syncResolve q p rest) (·.syncResolve hp)
  | audioStep _ => exact agents (audioBody_keepsAgents s).inside (·.audioStep) (·.audioStep)
  | pwmTimerStep => exact unitOnly (pwmTimerStep_keepsAgents s) (·.pwmTimerStep)
  | sampleTick => exact unitOnly (sampleTick_keepsAgents s) (·.sampleTick)
  | fifoWrite thr ch v => exact busOnly (.of_eq rfl rfl) (·.fifoWrite ch v)
  | fifoRead ch => exact busOnly (by rw [fifoRead_eq]; exact .of_eq rfl rfl) (·.fifoRead ch)
  | fifoDrain ch => exact busOnly (by rw [fifoDrain_eq]; exact .of_eq rfl rfl) (·.fifoDrain ch)
  | dreqStep _ => exact busOnly (dreqStep_keeps s) (·.dreqStep)
  | autofillStep ha => exact busOnly (autofillStep_keeps s) (·.autofillStep ha)
  | irqRaise thr c k => exact busOnly (irqRaise_keeps c k s) (·.irqRaise c k)
  | irqQuery c _ => exact same ⟨h, rfl⟩
  | irqDispatch c k hp =>
    exact busOnly (irqDispatch_keeps c k s) (·.irqDispatch (fun hi => absurd hi (hd c hp)) c k)
  | latchCommit => exact unitOnly (latchCommit_keepsAgents s) (·.latchCommit)
  | fbCommit thr => exact busOnly (fbCommit_keeps s) (·.fbCommit)
  | selectFb thr v => exact busOnly (selectFb_keeps v s) (·.selectFb v)

/-- The result an operation records is no part of the invariant. -/
theorem inv_setResult (h : Inv s) (r : OpResult) : Inv (setResult s r) :=
  ⟨⟨h.mem.form, h.mem.writable⟩, h.dreq, h.autofill, h.pwm, h.coreM, h.coreS, h.holder, h.queues, h.pixels, h.held⟩

/-- A presented word taken off the list is no part of the invariant. -/
theorem inv_withOps (h : Inv s) (ops : List OpWord) : Inv { s with ops := ops } := by
  refine ⟨⟨h.mem.form, h.mem.writable⟩, h.dreq, h.autofill, h.pwm, h.coreM, h.coreS, ?_, h.queues, h.pixels, h.held⟩
  have alive (x : Agent) : ({ s with ops := ops } : State).alive x = s.alive x := by cases x <;> rfl
  rw [alive]
  exact h.holder

theorem inv_exec {j : Instr} {t : State} (he : exec j s = .next t) (h : Inv s)
    (hd : ∀ c, instrPlace j = .within [.normalStep c] → s.inside ≠ none) :
    Inv t ∧ (s.inside = none → t.inside = none) := by
  obtain ⟨u, r, hu, rfl⟩ := exec_next he
  obtain ⟨hinv, hinside⟩ := inv_performed hu h hd
  exact ⟨inv_setResult hinv r, hinside⟩

/-- Every step keeps the invariant. -/
theorem inv_step {t : State} (h : Inv s) (hs : step s = .next t) : Inv t ∧ (s.inside = none → t.inside = none) := by
  rcases step_cases hs with ⟨i, hi, he⟩ | ⟨w, rest, i, -, -, -, hm, he⟩
  · refine inv_exec he h fun c hc => ?_
    obtain ⟨-, -, ⟨rfl, -⟩ | ⟨-, ⟨-, rfl⟩ | ⟨-, rfl⟩ | ⟨-, rfl⟩⟩⟩ := internalStep_eq_some s i hi <;> exact nomatch hc
  · refine inv_exec (s := { s with ops := rest }) he (inv_withOps h rest) fun c hc => ?_
    rw [hc, mayPerform_within] at hm
    obtain ⟨op, -, hop, -⟩ := hm
    exact hop ▸ nofun

end

/-- Settles O57: the invariant as a step lemma, by what each operation performs. -/
theorem invariantIsKeptByEveryStep : Obligations.InvariantIsKeptByEveryStep :=
  fun _ _ h hs => inv_step h hs

end Sys2Proof.StateProofs
end

section
/-! `POWER`, the reset state and the boot ROMs (70_reset_and_hazards.md R390, R391, R397, R398; 10_state.md R32). -/

namespace Sys2Proof.StateProofs
open Sys2Proof.Machine Sys2Proof.Laws

/-! ### What `POWER` leaves in memory -/

/-- Entries dropped at other locations leave what is listed at this one. -/
theorem lookup_filter (f : Nat → Bool) {a : Nat} (ha : f a = true) (m : Memory) :
    Memory.lookup (m.filter fun e => f e.1) a = Memory.lookup m a := by
  induction m with
  | nil => rfl
  | cons e rest ih =>
    obtain ⟨k, b⟩ := e
    rw [List.filter_cons]
    by_cases hk : k = a
    · simp [Memory.lookup, hk, ha]
    · cases hf : f k <;> simp [Memory.lookup, hk, ih]

/-- A byte outside the boot ROMs after `POWER`: kept by a warm one, free after a cold one. -/
theorem readByte_powerFields (r : Bool) (s : State) {x : Nat} (hx : 0x8000 ≤ x) :
    readByte (powerFields r s) x = if r then readByte s x else Config.coldByte (s.powerOns + 1) x := by
  cases r
  · show unlisted (s.powerOns + 1) x = _
    rw [unlisted, if_neg (by omega), if_neg (by omega)]
    rfl
  · have outside : (!isBootLoc x) = true := by simpa [isBootLoc] using hx
    show (Memory.lookup (s.mem.filter fun e => !isBootLoc e.1) x).getD _ = _
    rw [lookup_filter (fun a => !isBootLoc a) outside]
    rfl

/-- `POWER` as an operation. -/
theorem exec_power (r : Bool) {s : State} (h : HostTurn s) :
    exec (.power r) s = .next (setResult (powerFields r s) .none) := by
  show hostEvent s (power r s) = _
  rw [hostEvent_eq s _ h, power_eq]

theorem unpowered_alive (s : State) (x : Agent) : s.unpowered.alive x = decide (x = .h) := by cases x <;> rfl

/-- Settles O54: after `power_eq` every field but four is that of `State.reset` by definition. -/
theorem powerReinitialisesEverything : Obligations.PowerReinitialisesEverything := by
  intro r s h
  refine ⟨setResult (powerFields r s) .none, exec_power r h, rfl, fun x hx => readByte_powerFields r s hx,
    fun c w hw => readWord_boot (bootUnlisted_powerMem r s) c hw, ?_⟩
  rintro u rfl
  refine ⟨fun x hx => ?_, fun x => by cases x <;> rfl⟩
  rw [unpowered_alive]
  exact decide_eq_false hx

/-! ### The boot ROMs -/

theorem bootromWords_le (c : CoreId) : Config.bootromWords c ≤ 0x2000 := by cases c <;> decide

theorem readWord_boot_of_inv {s : State} (h : Inv s) (c : CoreId) {w : Nat} (hw : w < Config.bootromWords c) :
    readWord s (bootMem c) w = Config.bootImage c w :=
  readWord_boot (bootUnlisted_of_memInv h.mem) c (hw.trans_le (bootromWords_le c))

/-- Settles O60: no boot location is listed after `POWER`, nor in a state that meets the invariant. -/
theorem bootRomsNeverChange : Obligations.BootRomsNeverChange := by
  refine ⟨fun r s t c w ht hw => ?_, fun s t c w h hw =>
    ⟨readWord_boot_of_inv h c hw, fun ht => readWord_boot_of_inv (inv_step h ht).1 c hw⟩⟩
  obtain ⟨hturn, rfl⟩ := hostEvent_next.mp ht
  have unlisted : BootUnlisted (setResult (power r s) .none).mem := by
    rw [power_eq]
    exact bootUnlisted_powerMem r s
  exact readWord_boot unlisted c (hw.trans_le (bootromWords_le c))

/-! ### The reset state -/

/-- A clock of the reset state is ahead of none. -/
theorem within_reset (t p : Agent) (bound : Nat) : Within State.reset t p bound :=
  fun _ _ => .inr (by cases t <;> exact Nat.zero_le _)

/-- Settles O56. -/
theorem invariantHoldsAtReset : Obligations.InvariantHoldsAtReset := by
  refine ⟨⟨⟨wf_reset, nofun⟩, ⟨rfl, nofun, rfl⟩, ⟨nofun, nofun⟩, ?_, deficitInv_reset .m, deficitInv_reset .s, rfl,
    fun x => by cases x <;> exact ⟨nofun, Nat.zero_le _⟩, List.length_replicate, fun _ _ c => by cases c <;> rfl⟩,
    ⟨fun _ => within_reset _ _ _, fun _ => within_reset _ _ _, fun _ => within_reset _ _ _,
      fun _ _ => within_reset _ _ _⟩⟩
  exact ⟨Nat.zero_le _, Nat.zero_le _, rfl, (by decide : (0 : BitVec 32) < 16)⟩

theorem mayIssue_reset (i : Initiator) : MayIssue i State.reset := fun _ => ⟨rfl, rfl⟩

/-- The read values of 70_reset_and_hazards.md R398. -/
def resetWord : Reg → Word
  | .adapter => 0x0002
  | .pwml => 0x4000
  | .pwmr => 0x4000
  | .fbctl => 0x8000
  | _ => 0

theorem regRead_reset (i : Initiator) (r : Reg) : regRead i r State.reset = resetWord r := by
  cases r
  case irqen | irqstat => cases i <;> rfl
  case mbox n =>
    show (Vector.replicate 8 (0 : Word))[n.val] = 0
    simp
  all_goals rfl

/-- Before the first `POWER` no core steps (10_state.md R28). -/
theorem exec_coreStepOf_unpowered (s : State) (c : CoreId) :
    exec (coreStepOf c) s.unpowered = .refused .notEnabled := by
  cases c <;> rfl

/-- Settles O55. -/
theorem resetStateHoldsTheResetValues : Obligations.ResetStateHoldsTheResetValues := by
  refine ⟨rfl, fun x => by cases x <;> exact ⟨rfl, rfl, rfl⟩, fun c => ⟨?_, ?_, ?_, ?_, fun k => ?_, ?_⟩, rfl, rfl, rfl,
    rfl, rfl, rfl, rfl, rfl, rfl, rfl, rfl, rfl, rfl, rfl, by decide, rfl, rfl, rfl,
    fun s => ⟨unpowered_alive s, rfl, exec_coreStepOf_unpowered s⟩, fun i r => ?_⟩
  case refine_5 => cases c <;> cases k <;> exact ⟨rfl, rfl⟩
  case refine_7 =>
    rw [exec_reg_read r i .word _ (mayIssue_reset i), mask_word, regRead_reset]
    rfl
  all_goals cases c <;> rfl

end Sys2Proof.StateProofs
end

section
/-! The display engine's safety: who writes the latched display registers, and when the banks swap (43_vdp.md R246,
R247, R252, R253; 10_state.md R72 (b)). -/

namespace Sys2Proof.StateProofs
open Sys2Proof.Machine Sys2Proof.Laws

/-! ### The latched display registers -/

theorem audioBody_latch (s : State) : (audioBody s).vdp.latch = s.vdp.latch := by
  have timer : (pwmTimerStep s).vdp.latch = s.vdp.latch := by
    obtain ⟨q, out, k, e⟩ := pwmTimerStep_frame s
    rw [e]
  exact audioBody_induction (P := fun u => u.vdp.latch = s.vdp.latch) timer
    (fun _ => (dreqStep_keeps _).latch.trans timer) fun ht _ => (autofillStep_keeps _).latch.trans ht

/-- `LATCH_COMMIT`, at the rising edge of `VBLANK` and nowhere else among the levels, makes the latch the live registers
(43_vdp.md R250, R252). -/
theorem vblankEvent_latch (b : Bool) (s : State) :
    (vblankEvent b s).vdp.latch = if !s.vdp.vblank && b then s.vdp.live else s.vdp.latch := by
  unfold vblankEvent
  dsimp only
  split
  · rw [irqRaiseBoth_eq, fbCommit_eq]
    rfl
  · rfl

theorem hblankEvent_latch (b : Bool) (s : State) : (hblankEvent b s).vdp.latch = s.vdp.latch := by
  unfold hblankEvent
  dsimp only
  split
  · split <;> rfl
  · rfl

/-- What an operation does to the latch. -/
theorem latch_performed {j : Instr} {s u : State} (hj : Performed j s u) : u.vdp.latch = s.vdp.latch ∨
    (j = .vblank true ∧ s.vdp.vblank = false ∧ u.vdp.latch = s.vdp.live) ∨
    (j = .latchCommit ∧ u.vdp.latch = s.vdp.live) ∨ ∃ r, j = .power r := by
  cases hj with
  | read i l g _ _ => exact .inl (targetRead_keeps i l g s).latch
  | regWrite r i l d _ => exact .inl (regWrite_keeps i r l d s).latch
  | busWrite l i a d _ => exact .inl (targetWrite_keeps i l _ d s).latch
  | windowWrite i l g d _ _ _ _ => exact .inl (targetWrite_keeps i l g d s).latch
  | power r _ => exact .inr (.inr (.inr ⟨r, rfl⟩))
  | vblank b _ =>
    rw [vblankEvent_latch]
    split
    · next hedge =>
      obtain ⟨hlow, rfl⟩ := Bool.and_eq_true_iff.mp hedge
      exact .inr (.inl ⟨rfl, by simpa using hlow, rfl⟩)
    · exact .inl rfl
  | hblank b _ => exact .inl (hblankEvent_latch b s)
  | restart _ => exact .inl (by unfold restart; dsimp only; split <;> rfl)
  | coreStep c _ => exact .inl (coreBody_keeps c s).latch
  | syncResolve q p rest _ _ _ => exact .inl (by unfold syncResolve; split <;> rfl)
  | audioStep _ => exact .inl (audioBody_latch s)
  | pwmTimerStep =>
    obtain ⟨q, out, k, e⟩ := pwmTimerStep_frame s
    exact .inl (by rw [e])
  | sampleTick =>
    obtain ⟨q, out, k, e⟩ := sampleTick_frame s
    exact .inl (by rw [e])
  | fifoRead ch => exact .inl (by rw [fifoRead_eq]; rfl)
  | fifoDrain ch => exact .inl (by rw [fifoDrain_eq]; rfl)
  | dreqStep _ => exact .inl (dreqStep_keeps s).latch
  | autofillStep _ => exact .inl (autofillStep_keeps s).latch
  | irqDispatch c k _ => exact .inl (irqDispatch_keeps c k s).latch
  | latchCommit => exact .inr (.inr (.inl ⟨rfl, rfl⟩))
  | fbCommit thr => exact .inl (fbCommit_keeps s).latch
  | selectFb thr v => exact .inl (selectFb_keeps v s).latch
  | unload | scanline | hostAdvance | hostSync | fifoWrite | irqRaise | irqQuery => exact .inl rfl

/-- Settles O43. -/
theorem latchIsWrittenAtVblankOnly : Obligations.LatchIsWrittenAtVblankOnly := by
  intro j s t ht hne
  obtain ⟨u, r, hu, rfl⟩ := exec_next ht
  exact (latch_performed hu).resolve_left hne

/-! ### The bank swap -/

/-- Nothing is engaged and the displayed bank is the requested one: what a swap leaves (43_vdp.md R253). -/
def Settled (s : State) : Prop := framebufferEngaged s = false ∧ s.fbSel = s.vdp.fbReq

/-- The displayed bank is what it was, or the swap is settled. -/
def SwapOk (s t : State) : Prop := t.fbSel = s.fbSel ∨ Settled t

theorem SwapOk.trans {s t u : State} (a : SwapOk s t) (b : SwapOk t u) (keep : Settled t → Settled u) : SwapOk s u := by
  rcases b with hsame | hsettled
  · exact a.imp hsame.trans keep
  · exact .inr hsettled

theorem fbCommit_swapOk (s : State) : SwapOk s (fbCommit s) := by
  have engaged : framebufferEngaged (fbCommit s) = framebufferEngaged s := by
    rw [fbCommit_eq]
    rfl
  have request : (fbCommit s).vdp.fbReq = s.vdp.fbReq := by rw [fbCommit_eq]
  have bank := fbCommit_fbSel s
  unfold SwapOk Settled
  rw [engaged, request]
  split at bank
  · exact .inl bank
  · next h => exact .inr ⟨Bool.eq_false_iff.mpr h, bank⟩

/-- Of the registers only `FBCTL` reaches the bank select. -/
theorem regWrite_fbSel (i : Initiator) {r : Reg} (hr : r ≠ .fbctl) (l : Lanes) (d : Word) (s : State) :
    (regWrite i r l d s).fbSel = s.fbSel := by
  have banked (f : IrqCtl → IrqCtl) : (updateBanked i f s).fbSel = s.fbSel := by
    unfold updateBanked
    split <;> rfl
  have field (f : Dreq → Dreq) : (dreqFieldWrite f s).fbSel = s.fbSel := by
    unfold dreqFieldWrite
    split <;> rfl
  unfold regWrite
  cases r
  case fbctl => exact absurd rfl hr
  case irqstat | hperiod | hcounter | mbox | pwmctl | pwmcyc => rfl
  case irqen | irqack =>
    dsimp only
    split
    · exact banked _
    · rfl
  case dreqsrch | dreqsrcl | dreqdsth | dreqdstl | dreqlen => exact field _
  case adapter =>
    dsimp only [adapterWrite]
    split
    · split
      · rw [loadEntry_eq, loadEntry_eq]
        rfl
      · rfl
    · rfl
  case cmdreq =>
    dsimp only [cmdreqWrite]
    split
    · split <;> split <;> rfl
    · rfl
  case pwml | pwmr =>
    dsimp only [sampleWrite]
    split <;> rfl
  case dreqctl =>
    dsimp only [dreqctlWrite]
    split <;> rfl
  case vdpmode =>
    dsimp only [vdpmodeWrite]
    split <;> rfl
  case vdpshift =>
    dsimp only [vdpshiftWrite]
    split <;> rfl
  case aflen =>
    dsimp only [aflenWrite]
    split <;> rfl
  case afaddr =>
    dsimp only [afaddrWrite]
    split <;> rfl
  case afdata =>
    dsimp only [afdataWrite]
    split <;> rfl

theorem regWrite_swapOk (i : Initiator) (r : Reg) (l : Lanes) (d : Word) (s : State) :
    SwapOk s (regWrite i r l d s) := by
  by_cases hr : r = .fbctl
  · subst hr
    exact iteInduction (motive := SwapOk s) (fun _ => fbCommit_swapOk { s with vdp := _ }) fun _ => .inl rfl
  · exact .inl (regWrite_fbSel i hr l d s)

theorem writeWord_fbSel (s : State) (m : MemId) (w : Nat) (l : Lanes) (d : Word) :
    (writeWord s m w l d).fbSel = s.fbSel := by rw [writeWord_eq]

theorem targetWrite_swapOk (i : Initiator) (l : Lanes) (g : Target) (d : Word) (s : State) :
    SwapOk s (targetWrite i l g d s) := by
  cases g with
  | reg r => exact regWrite_swapOk i r l d s
  | palette | vram | sdram => exact .inl (writeWord_fbSel _ _ _ _ _)
  | bootrom | reserved | external => exact .inl rfl

/-- The end of a transfer step: a settled swap stays settled, since activity can only fall. -/
theorem dreqAdvance_swap (s : State) : SwapOk s (dreqAdvance s) ∧ (Settled s → Settled (dreqAdvance s)) := by
  have commit : SwapOk s (dreqAdvance s) := by
    unfold dreqAdvance
    dsimp only
    split
    · exact fbCommit_swapOk { s with dreq := _ }
    · exact .inl rfl
  refine ⟨commit, fun ⟨hidle, hbank⟩ => commit.elim (fun hsame => ⟨?_, ?_⟩) id⟩
  · rw [dreqAdvance_eq]
    simp only [framebufferEngaged, scanEngaged, paintEngaged, Bool.or_eq_false_iff] at hidle ⊢
    obtain ⟨hscan, hfill, htransfer⟩ := hidle
    refine ⟨hscan, hfill, ?_⟩
    cases ha : s.dreq.active
    · rfl
    · rw [ha, Bool.true_and] at htransfer
      rw [htransfer, Bool.and_false]
  · rw [hsame, hbank, dreqAdvance_eq]

theorem dreqStep_swapOk (s : State) : SwapOk s (dreqStep s) := by
  have store (v : Word) (u : State) : SwapOk u (dreqStore v u) := by
    unfold dreqStore
    split
    · exact .inl (writeWord_fbSel _ _ _ _ _)
    · exact targetWrite_swapOk _ _ _ _ _
  have through (w : Word) (u : State) : (dreqThrough w u).2.fbSel = u.fbSel := by
    unfold dreqThrough
    split <;> rfl
  obtain ⟨e, he⟩ := busRead_changes .dreq .word (dreqAddr s.dreq.source) s
  unfold dreqStep
  dsimp only
  rw [he]
  have moved := store (dreqThrough (busRead .dreq .word (dreqAddr s.dreq.source) s).1 { s with extLog := e }).1
    (dreqThrough (busRead .dreq .word (dreqAddr s.dreq.source) s).1 { s with extLog := e }).2
  obtain ⟨commit, keep⟩ := dreqAdvance_swap (dreqStore _ _)
  exact SwapOk.trans (moved.imp_left fun h => h.trans (through _ _)) commit keep

theorem autofillStep_swapOk (s : State) : SwapOk s (autofillStep s) := by
  have written := writeWord_fbSel s (backBank s) (s.vdp.autofillAddress.toNat % Config.bankWords) .word
    s.vdp.autofillData
  unfold autofillStep autofillAdvance
  dsimp only
  split
  · exact (fbCommit_swapOk _).imp_left fun h => h.trans written
  · exact .inl written

theorem audioBody_swapOk (s : State) : SwapOk s (audioBody s) := by
  have timer : (pwmTimerStep s).fbSel = s.fbSel := by
    obtain ⟨q, out, k, e⟩ := pwmTimerStep_frame s
    rw [e]
  refine audioBody_induction (P := SwapOk s) (.inl timer)
    (fun _ => (dreqStep_swapOk _).imp_left fun h => h.trans timer)
    fun ht hfill => SwapOk.trans ht (autofillStep_swapOk _) fun ⟨hidle, _⟩ => ?_
  simp [framebufferEngaged, paintEngaged, hfill] at hidle

theorem vblankEvent_swapOk (b : Bool) (s : State) : SwapOk s (vblankEvent b s) := by
  unfold vblankEvent
  dsimp only
  split
  · exact fbCommit_swapOk (latchCommit { s with vdp := _ })
  · exact .inl rfl

theorem hblankEvent_fbSel (b : Bool) (s : State) : (hblankEvent b s).fbSel = s.fbSel := by
  unfold hblankEvent
  dsimp only
  split
  · split <;> rfl
  · rfl

/-- Every operation but a core's step leaves the bank or a settled swap. -/
theorem swapOk_performed {j : Instr} {s u : State} (hj : Performed j s u) (hm : j ≠ .coreStepM) (hs : j ≠ .coreStepS) :
    SwapOk s u := by
  cases hj with
  | read i l g _ _ => exact .inl (by rw [targetRead_eq])
  | regWrite r i l d _ => exact regWrite_swapOk i r l d s
  | busWrite l i a d _ => exact targetWrite_swapOk i l _ d s
  | windowWrite i l g d _ _ _ _ => exact targetWrite_swapOk i l g d s
  | power r _ => exact .inr (by rw [power_eq]; exact ⟨rfl, rfl⟩)
  | vblank b _ => exact vblankEvent_swapOk b s
  | hblank b _ => exact .inl (hblankEvent_fbSel b s)
  | restart _ => exact .inl (by unfold restart; dsimp only; split <;> rfl)
  | coreStep c _ =>
    cases c
    · exact absurd rfl hm
    · exact absurd rfl hs
  | syncResolve q p rest _ _ _ => exact .inl (by unfold syncResolve; split <;> rfl)
  | audioStep _ => exact audioBody_swapOk s
  | pwmTimerStep =>
    obtain ⟨q, out, k, e⟩ := pwmTimerStep_frame s
    exact .inl (by rw [e])
  | sampleTick =>
    obtain ⟨q, out, k, e⟩ := sampleTick_frame s
    exact .inl (by rw [e])
  | fifoRead ch => exact .inl (by rw [fifoRead_eq]; rfl)
  | fifoDrain ch => exact .inl (by rw [fifoDrain_eq]; rfl)
  | dreqStep _ => exact dreqStep_swapOk s
  | autofillStep _ => exact autofillStep_swapOk s
  | irqDispatch c k _ =>
    obtain ⟨e, r, he⟩ := irqDispatch_changes c k s
    exact .inl (by rw [he]; rfl)
  | fbCommit thr => exact fbCommit_swapOk s
  | selectFb thr v => exact fbCommit_swapOk { s with vdp := _ }
  | unload | scanline | hostAdvance | hostSync | fifoWrite | irqRaise | irqQuery | latchCommit => exact .inl rfl

/-- Settles O41. -/
theorem bankSwapsOnlyWhileDisengaged : Obligations.BankSwapsOnlyWhileDisengaged := by
  intro j s t hm hs ht hne
  obtain ⟨u, r, hu, rfl⟩ := exec_next ht
  exact (swapOk_performed hu hm hs).resolve_left hne

end Sys2Proof.StateProofs
end

section
/-! The interrupt controllers' safety: who sets and who clears an active bit (10_state.md R72; 42_interrupt.md R220 to
R230). Each operation's effect on one bit is a `BitFate`: kept, or raised or cleared by a cause. -/

namespace Sys2Proof.StateProofs
open Sys2Proof.Machine Sys2Proof.Laws

/-! ### The fate of a bit -/

/-- What became of a bit: it is what it was, or 1 by a cause that raises, or 0 by a cause that clears. -/
inductive BitFate (raises clears : Prop) (old new : Bool) : Prop
  | kept : new = old → BitFate raises clears old new
  | raised : raises → new = true → BitFate raises clears old new
  | cleared : clears → new = false → BitFate raises clears old new

section
variable {R R' C C' : Prop} {a b c : Bool}

theorem BitFate.imp (h : BitFate R C a b) (hr : R → R') (hc : C → C') : BitFate R' C' a b := by
  cases h with
  | kept h => exact .kept h
  | raised r h => exact .raised (hr r) h
  | cleared r h => exact .cleared (hc r) h

theorem BitFate.trans (h : BitFate R C a b) (h' : BitFate R C b c) : BitFate R C a c := by
  cases h' with
  | kept e => exact e ▸ h
  | raised r e => exact .raised r e
  | cleared r e => exact .cleared r e

/-- A bit whose change to either value has a cause. -/
theorem BitFate.of_change (hr : a = false → b = true → R) (hc : a = true → b = false → C) : BitFate R C a b := by
  cases a <;> cases b
  · exact .kept rfl
  · exact .raised (hr rfl rfl) rfl
  · exact .cleared (hc rfl rfl) rfl
  · exact .kept rfl

end

/-- The active bit of a source of a core (10_state.md R29). -/
def activeBit (s : State) (c : CoreId) (k : Source) : Bool := (s.cores.get c).irq.active.get k

section
variable (c : CoreId) (k : Source)

/-! ### Operations that leave every bit -/

theorem activeBit_setRegs (s : State) (x : CoreId) (r : CoreRegs) : activeBit (setRegs s x r) c k = activeBit s c k := by
  cases x <;> cases c <;> rfl

theorem activeBit_takeInterrupt (x : CoreId) (s : State) :
    activeBit (takeInterrupt x s).2 c k = activeBit s c k := by
  obtain ⟨e, r, h⟩ := takeInterrupt_changes x s
  rw [h, activeBit_setRegs]
  rfl

theorem activeBit_endRegs (x : CoreId) (b : Bool) (r : CoreRegs) (s : State) :
    activeBit (endRegs x b r s) c k = activeBit s c k := by
  cases b
  · exact activeBit_setRegs c k s x r
  · rfl

/-- `Advance` and `SyncCheck` move clocks, deficits and queues only. -/
theorem activeBit_syncCheck_advanceCore (x : CoreId) (n : Nat) (s : State) :
    activeBit (syncCheck x (advanceCore x n s)) c k = activeBit s c k := by
  cases x <;> cases c <;> rfl

theorem activeBit_writeWord (s : State) (m : MemId) (w : Nat) (l : Lanes) (d : Word) :
    activeBit (writeWord s m w l d) c k = activeBit s c k := by rw [writeWord_eq]; rfl

theorem activeBit_fbCommit (s : State) : activeBit (fbCommit s) c k = activeBit s c k := by rw [fbCommit_eq]; rfl

theorem activeBit_autofillStep (s : State) : activeBit (autofillStep s) c k = activeBit s c k := by
  unfold autofillStep
  rw [autofillAdvance_eq]
  exact activeBit_writeWord c k s _ _ _ _

/-! ### `IRQ_RAISE` -/

theorem irqRaise_fate (x : CoreId) (q : Source) (s : State) :
    BitFate (c = x ∧ k = q) False (activeBit s c k) (activeBit (irqRaise x q s) c k) := by
  have h := irqRaise_active x q s c k
  refine .of_change (fun h0 h1 => ?_) fun h1 h0 => ?_
  · exact (h.mp h1).resolve_right fun e => Bool.false_ne_true (h0.symm.trans e)
  · exact Bool.false_ne_true (h0.symm.trans (h.mpr (.inr h1)))

theorem irqRaiseBoth_fate (q : Source) (s : State) :
    BitFate (k = q) False (activeBit s c k) (activeBit (irqRaiseBoth q s) c k) :=
  ((irqRaise_fate c k .m q s).imp (·.2) id).trans ((irqRaise_fate c k .s q _).imp (·.2) id)

theorem sampleTick_fate (s : State) :
    BitFate (k = .pwm ∧ s.pwm.dreqIRQ = true ∧ tickEmpties s.pwm = true) False
      (activeBit s c k) (activeBit (sampleTick s) c k) := by
  obtain ⟨dc, pair, e⟩ := sampleTick_eq s
  rw [e]
  split
  · next h =>
    obtain ⟨hempty, hirq⟩ := Bool.and_eq_true_iff.mp h
    exact (irqRaiseBoth_fate c k .pwm (afterTick s dc pair)).imp (fun hk => ⟨hk, hirq, hempty⟩) id
  · exact .kept rfl

theorem pwmTimerStep_fate (s : State) :
    BitFate (k = .pwm ∧ s.pwm.dreqIRQ = true ∧ tickEmpties s.pwm = true ∧ s.pwm.periods ≤ s.pwm.counter + 1) False
      (activeBit s c k) (activeBit (pwmTimerStep s) c k) := by
  unfold pwmTimerStep
  dsimp only
  split
  · next hdue =>
    refine (sampleTick_fate c k { s with pwm := { s.pwm with cycle := s.pwm.cycle + 1, counter := 0 } }).imp ?_ id
    exact fun ⟨hk, hirq, hempty⟩ => ⟨hk, hirq, hempty, hdue⟩
  · exact .kept rfl

theorem vblankEvent_fate (b : Bool) (s : State) :
    BitFate (k = .vint ∧ b = true ∧ s.vdp.vblank = false) False (activeBit s c k)
      (activeBit (vblankEvent b s) c k) := by
  unfold vblankEvent
  dsimp only
  split
  · next hedge =>
    obtain ⟨hlow, hb⟩ := Bool.and_eq_true_iff.mp hedge
    have committed := activeBit_fbCommit c k (latchCommit { s with vdp := { s.vdp with vblank := b } })
    have raised := irqRaiseBoth_fate c k .vint (fbCommit (latchCommit { s with vdp := { s.vdp with vblank := b } }))
    rw [committed] at raised
    exact raised.imp (fun hk => ⟨hk, hb, by simpa using hlow⟩) id
  · exact .kept rfl

theorem hblankEvent_fate (b : Bool) (s : State) :
    BitFate (k = .hint ∧ b = true ∧ s.vdp.hblank = false ∧ s.io.hperiod ≤ s.io.hcounter) False (activeBit s c k)
      (activeBit (hblankEvent b s) c k) := by
  unfold hblankEvent
  dsimp only
  split
  · next hedge =>
    obtain ⟨hlow, hb⟩ := Bool.and_eq_true_iff.mp hedge
    split
    · next hdue =>
      exact (irqRaiseBoth_fate c k .hint { s with vdp := _, io := _ }).imp
        (fun hk => ⟨hk, hb, by simpa using hlow, hdue⟩) id
    · exact .kept rfl
  · exact .kept rfl

theorem restart_fate (s : State) :
    BitFate (k = .vres ∧ s.io.resetEnable = true) False (activeBit s c k) (activeBit (restart s) c k) := by
  unfold restart
  dsimp only
  split
  · next he => exact (irqRaiseBoth_fate c k .vres { s with pend := _, token := _ }).imp (fun hk => ⟨hk, he⟩) id
  · exact .kept rfl

/-! ### Register writes -/

/-- The active bits an acknowledgement leaves (42_interrupt.md R224). -/
theorem ackBits_get (active : SourceBits) (d : Word) :
    (ackBits active d).get k = (active.get k && !d.getLsbD k.code.toNat) := by
  cases k <;> rfl

theorem activeBit_setIrq_other (s : State) {x : CoreId} (hx : c ≠ x) (q : IrqCtl) :
    activeBit (setIrq s x q) c k = activeBit s c k := by
  unfold activeBit
  rw [setIrq_cores, PerCore.get_set_other _ _ _ _ hx]

theorem activeBit_setIrq_same (s : State) (q : IrqCtl) : activeBit (setIrq s c q) c k = q.active.get k := by
  unfold activeBit
  rw [setIrq_cores, PerCore.get_set_same]

theorem activeBit_updateEnable (i : Initiator) (b : SourceBits) (s : State) :
    activeBit (updateBanked i (fun q => { q with enable := b }) s) c k = activeBit s c k := by
  unfold updateBanked
  split
  · next x _ =>
    by_cases hx : c = x
    · subst hx
      exact activeBit_setIrq_same c k s _
    · exact activeBit_setIrq_other c k s hx _
  · rfl

theorem updateAck_fate (i : Initiator) (d : Word) (s : State) :
    BitFate False (i = c.init ∧ d.getLsbD k.code.toNat = true) (activeBit s c k)
      (activeBit (updateBanked i (fun q => { q with active := ackBits q.active d }) s) c k) := by
  unfold updateBanked
  split
  · next x hi =>
    by_cases hx : c = x
    · subst hx
      rw [activeBit_setIrq_same, ackBits_get]
      cases hd : d.getLsbD k.code.toNat
      · exact .kept (Bool.and_true _)
      · exact .cleared ⟨init_of_core? hi, rfl⟩ (Bool.and_false _)
    · exact .kept (activeBit_setIrq_other c k s hx _)
  · exact .kept rfl

theorem cmdreqWrite_fate (l : Lanes) (d : Word) (s : State) :
    BitFate (k = .cmd ∧ l ≠ .upper ∧ d.getLsbD (cmdBit c) = true) False (activeBit s c k)
      (activeBit (cmdreqWrite l d s) c k) := by
  have raise (x : CoreId) (u : State) :
      BitFate (k = .cmd ∧ d.getLsbD (cmdBit c) = true) False (activeBit u c k)
        (activeBit (if d.getLsbD (cmdBit x) then irqRaise x .cmd u else u) c k) := by
    split
    · next hd => exact (irqRaise_fate c k x .cmd u).imp (fun ⟨hc, hk⟩ => ⟨hk, hc ▸ hd⟩) id
    · exact .kept rfl
  unfold cmdreqWrite
  split
  · next hl =>
    exact ((raise .m s).trans (raise .s _)).imp (fun ⟨hk, hd⟩ => ⟨hk, ne_upper_of_lower hl, hd⟩) id
  · exact .kept rfl

/-- A register write sets an active bit through `CMDREQ` and clears one through `IRQACK`, and does so no other way. -/
theorem regWrite_fate (i : Initiator) (r : Reg) (l : Lanes) (d : Word) (s : State) :
    BitFate (k = .cmd ∧ r = .cmdreq ∧ l ≠ .upper ∧ d.getLsbD (cmdBit c) = true)
      (i = c.init ∧ r = .irqack ∧ l ≠ .upper ∧ d.getLsbD k.code.toNat = true)
      (activeBit s c k) (activeBit (regWrite i r l d s) c k) := by
  have field (f : Dreq → Dreq) : activeBit (dreqFieldWrite f s) c k = activeBit s c k := by
    unfold dreqFieldWrite
    split <;> rfl
  unfold regWrite
  cases r
  case cmdreq => exact (cmdreqWrite_fate c k l d s).imp (fun ⟨hk, hl, hd⟩ => ⟨hk, rfl, hl, hd⟩) False.elim
  case irqack =>
    dsimp only
    split
    · next hl =>
      exact (updateAck_fate c k i d s).imp False.elim fun ⟨hi, hd⟩ => ⟨hi, rfl, ne_upper_of_lower hl, hd⟩
    · exact .kept rfl
  case irqen =>
    dsimp only
    split
    · exact .kept (activeBit_updateEnable c k i _ s)
    · exact .kept rfl
  case irqstat | hperiod | hcounter | mbox | pwmctl | pwmcyc => exact .kept rfl
  case dreqsrch | dreqsrcl | dreqdsth | dreqdstl | dreqlen => exact .kept (field _)
  case adapter =>
    dsimp only [adapterWrite]
    split
    · split
      · rw [loadEntry_eq, loadEntry_eq]
        exact .kept ((activeBit_setRegs c k _ .s _).trans (activeBit_setRegs c k _ .m _))
      · exact .kept rfl
    · exact .kept rfl
  case pwml | pwmr =>
    dsimp only [sampleWrite]
    split <;> exact .kept rfl
  case dreqctl =>
    dsimp only [dreqctlWrite]
    split <;> exact .kept rfl
  case vdpmode =>
    dsimp only [vdpmodeWrite]
    split <;> exact .kept rfl
  case vdpshift =>
    dsimp only [vdpshiftWrite]
    split <;> exact .kept rfl
  case aflen =>
    dsimp only [aflenWrite]
    split <;> exact .kept rfl
  case afaddr =>
    dsimp only [afaddrWrite]
    split <;> exact .kept rfl
  case afdata =>
    dsimp only [afdataWrite]
    split <;> exact .kept rfl
  case fbctl =>
    dsimp only [fbctlWrite]
    split
    · exact .kept (activeBit_fbCommit c k { s with vdp := _ })
    · exact .kept rfl

/-- A write that reaches no register touches no bit. -/
theorem targetWrite_activeBit {g : Target} (hg : ∀ r, g ≠ .reg r) (i : Initiator) (l : Lanes) (d : Word) (s : State) :
    activeBit (targetWrite i l g d s) c k = activeBit s c k := by
  cases g with
  | reg r => exact absurd rfl (hg r)
  | palette | vram | sdram => exact activeBit_writeWord c k s _ _ _ _
  | bootrom | reserved | external => rfl

/-- A transaction sets an active bit by a write of 1 to `CMDREQ` and clears one by such a write to `IRQACK`. -/
theorem busWrite_fate (i : Initiator) (l : Lanes) (a : Long) (d : Word) (s : State) :
    BitFate (k = .cmd ∧ SetsBit i .cmdreq (cmdBit c) l a d) (i = c.init ∧ SetsBit i .irqack k.code.toNat l a d)
      (activeBit s c k) (activeBit (busWrite i l a d s).2 c k) := by
  show BitFate _ _ _ (activeBit (targetWrite i l (targetOf i a) d s) c k)
  unfold SetsBit
  by_cases hg : ∃ r, targetOf i a = .reg r
  · obtain ⟨r, hr⟩ := hg
    rw [hr]
    exact (regWrite_fate c k i r l d s).imp (fun ⟨hk, hcmd, hrest⟩ => ⟨hk, hcmd ▸ rfl, hrest⟩)
      fun ⟨hi, hack, hrest⟩ => ⟨hi, hack ▸ rfl, hrest⟩
  · exact .kept (targetWrite_activeBit c k (fun r hr => hg ⟨r, hr⟩) i l d s)

end

/-! ### The transfer step -/

theorem dreqStep_fate (c : CoreId) (k : Source) (s : State) (ha : s.dreq.active = true) :
    BitFate (k = .cmd ∧ DreqCommands c s) False (activeBit s c k) (activeBit (dreqStep s) c k) := by
  obtain ⟨e, he⟩ := busRead_changes .dreq .word (dreqAddr s.dreq.source) s
  unfold dreqStep
  dsimp only
  rw [he, dreqAdvance_eq]
  show BitFate _ _ _ (activeBit (dreqStore _ _) c k)
  have word : (dreqThrough (busRead .dreq .word (dreqAddr s.dreq.source) s).1 { s with extLog := e }).1 = dreqWord s := by
    unfold dreqWord dreqThrough
    dsimp only
    split <;> rfl
  rw [word]
  generalize hu : (dreqThrough (busRead .dreq .word (dreqAddr s.dreq.source) s).1 { s with extLog := e }).2 = u
  have same : u.cores = s.cores ∧ u.dreq.vram = s.dreq.vram ∧ u.dreq.target = s.dreq.target := by
    subst hu
    unfold dreqThrough
    split <;> exact ⟨rfl, rfl, rfl⟩
  obtain ⟨hcores, hvram, htarget⟩ := same
  have start : activeBit s c k = activeBit u c k := by rw [activeBit, activeBit, hcores]
  rw [start]
  unfold dreqStore
  split
  · exact .kept (activeBit_writeWord c k u _ _ _ _)
  · next hv =>
    rw [htarget]
    refine (busWrite_fate c k .dreq .word _ (dreqWord s) u).imp (fun ⟨hk, hset⟩ => ⟨hk, ha, ?_, hset⟩) fun ⟨hi, _⟩ => ?_
    · rw [← hvram]
      exact Bool.eq_false_iff.mpr hv
    · exact CoreId.init_ne_dreq c hi.symm

theorem audioBody_fate (c : CoreId) (k : Source) (s : State) :
    BitFate ((k = .pwm ∧ s.pwm.dreqIRQ = true ∧ tickEmpties s.pwm = true ∧ s.pwm.periods ≤ s.pwm.counter + 1) ∨
      (k = .cmd ∧ DreqCommands c (pwmTimerStep s))) False (activeBit s c k) (activeBit (audioBody s) c k) := by
  have timer := (pwmTimerStep_fate c k s).imp (R' := _ ∨ (k = .cmd ∧ DreqCommands c (pwmTimerStep s))) .inl id
  exact audioBody_induction (P := fun u => BitFate _ False (activeBit s c k) (activeBit u c k)) timer
    (fun ha => timer.trans ((dreqStep_fate c k _ ha).imp .inr id))
    fun ht _ => ht.trans (.kept (activeBit_autofillStep c k _))

/-! ### An instruction of a core -/

section
variable {P : State → Prop} {kind : Lanes → Long → Word → Prop}

/-- Where a list of write transactions brings about what was not so, one of them did. -/
theorem foldl_busWrite_first (i : Initiator)
    (hw : ∀ l a d s, ¬ P s → P (busWrite i l a d s).2 → kind l a d) (ws : List (Lanes × Long × Word)) {s : State}
    (h0 : ¬ P s) (h1 : P (ws.foldl (fun u p => (busWrite i p.1 p.2.1 p.2.2 u).2) s)) :
    ∃ p ∈ ws, kind p.1 p.2.1 p.2.2 := by
  induction ws generalizing s with
  | nil => exact absurd h1 h0
  | cons q rest ih =>
    by_cases hq : P (busWrite i q.1 q.2.1 q.2.2 s).2
    · exact ⟨q, List.mem_cons_self, hw _ _ _ _ h0 hq⟩
    · obtain ⟨p, hp, hk⟩ := ih hq h1
      exact ⟨p, List.mem_cons_of_mem _ hp, hk⟩

/-- Where an instruction brings about what was not so and no log entry decides, one of its write transactions did. -/
theorem runProgram_first (x : CoreId) (hr : ∀ e s, P { s with extLog := e } → P s)
    (hw : ∀ l a d s, ¬ P s → P (busWrite x.init l a d s).2 → kind l a d) (p : CoreProgram) (w : Nat) {s : State}
    (h0 : ¬ P s) (h1 : P (runProgram x p w s).2.2) : MakesWrite x kind p s := by
  induction p generalizing w s with
  | done r extra => exact absurd h1 h0
  | read a n k ih =>
    obtain ⟨e, he⟩ := memRead_changes x.init a n s
    have unread : ¬ P (memRead x.init a n s).2.2 := fun h => h0 (hr e s (he ▸ h))
    exact ih _ _ _ unread h1
  | write a n v k ih =>
    by_cases hq : P (memWrite x.init a n v s).2
    · rw [memWrite_eq_foldl] at hq
      exact .inl (foldl_busWrite_first x.init hw _ h0 hq)
    · exact .inr (ih _ _ hq h1)

/-- A program that makes a write of a kind makes a write. -/
theorem exists_of_makesWrite {x : CoreId} {p : CoreProgram} {s : State} (h : MakesWrite x kind p s) :
    ∃ l a d, kind l a d := by
  induction p generalizing s with
  | done r extra => exact h.elim
  | read a n k ih => exact ih _ _ h
  | write a n v k ih =>
    rcases h with ⟨p, -, hk⟩ | h
    · exact ⟨_, _, _, hk⟩
    · exact ih _ h

theorem makesWrite_imp {kind' : Lanes → Long → Word → Prop} (hk : ∀ l a d, kind l a d → kind' l a d) {x : CoreId}
    {p : CoreProgram} {s : State} (h : MakesWrite x kind p s) : MakesWrite x kind' p s := by
  induction p generalizing s with
  | done r extra => exact h.elim
  | read a n k ih => exact ih _ _ h
  | write a n v k ih =>
    rcases h with ⟨p, hp, h⟩ | h
    · exact .inl ⟨p, hp, hk _ _ _ h⟩
    · exact .inr (ih _ h)

end

/-- The bus calls of an instruction of core `x`. -/
theorem runProgram_fate (c : CoreId) (k : Source) (x : CoreId) (p : CoreProgram) (w : Nat) (s : State) :
    BitFate (k = .cmd ∧ MakesWrite x (SetsBit x.init .cmdreq (cmdBit c)) p s)
      (x = c ∧ MakesWrite x (SetsBit x.init .irqack k.code.toNat) p s)
      (activeBit s c k) (activeBit (runProgram x p w s).2.2 c k) := by
  refine .of_change (fun h0 h1 => ?_) fun h1 h0 => ?_
  · have raising : MakesWrite x (fun l a d => k = .cmd ∧ SetsBit x.init .cmdreq (cmdBit c) l a d) p s := by
      refine runProgram_first (P := fun u => activeBit u c k = true) x (fun _ _ h => h) (fun l a d u hn hy => ?_) p w
        (by simp [h0]) h1
      cases busWrite_fate c k x.init l a d u with
      | kept h => exact absurd (h ▸ hy) hn
      | raised h _ => exact h
      | cleared _ h => exact nomatch h.symm.trans hy
    obtain ⟨_, _, _, hk, _⟩ := exists_of_makesWrite raising
    exact ⟨hk, makesWrite_imp (fun _ _ _ h => h.2) raising⟩
  · have clearing : MakesWrite x (fun l a d => x.init = c.init ∧ SetsBit x.init .irqack k.code.toNat l a d) p s := by
      refine runProgram_first (P := fun u => activeBit u c k = false) x (fun _ _ h => h) (fun l a d u hn hy => ?_) p w
        (by simp [h1]) h0
      cases busWrite_fate c k x.init l a d u with
      | kept h => exact absurd (h ▸ hy) hn
      | raised _ h => exact nomatch h.symm.trans hy
      | cleared h _ => exact h
    obtain ⟨_, _, _, hx, _⟩ := exists_of_makesWrite clearing
    have same : x = c := by simpa using congrArg Initiator.core? hx
    exact ⟨same, makesWrite_imp (fun _ _ _ h => h.2) clearing⟩

/-- A core's step: the bits change in the instruction of a normal step only (40_scheduler.md R152 to R154). -/
theorem coreStep_fate (c : CoreId) (k : Source) (x : CoreId) (s : State) :
    BitFate (k = .cmd ∧ NormalStepWrites x (SetsBit x.init .cmdreq (cmdBit c)) s)
      (x = c ∧ NormalStepWrites x (SetsBit x.init .irqack k.code.toNat) s)
      (activeBit s c k) (activeBit (coreStep x s) c k) := by
  unfold coreStep
  dsimp only
  rw [activeBit_syncCheck_advanceCore]
  unfold coreBody
  split
  · exact .kept rfl
  · next hheld =>
    split
    · exact .kept rfl
    · next hgated =>
      have held := Bool.eq_false_iff.mpr hheld
      have gated := Bool.eq_false_iff.mpr hgated
      unfold normalStep
      dsimp only
      rw [activeBit_endRegs, ← activeBit_takeInterrupt c k x s]
      exact (runProgram_fate c k x _ _ _).imp (fun ⟨hk, hw⟩ => ⟨hk, held, gated, hw⟩)
        fun ⟨hx, hw⟩ => ⟨hx, held, gated, hw⟩

/-! ### Every operation -/

/-- The causes by which an operation sets an active bit (10_state.md R72, 42_interrupt.md R230). -/
def RaisedBy (j : Instr) (s : State) (c : CoreId) (k : Source) : Prop :=
  (∃ thr, j = .irqRaise thr c k) ∨
  (k = .pwm ∧ s.pwm.dreqIRQ = true ∧ tickEmpties s.pwm = true ∧
    (j = .sampleTick ∨ ((j = .pwmTimerStep ∨ j = .audioStep) ∧ s.pwm.periods ≤ s.pwm.counter + 1))) ∨
  (k = .hint ∧ j = .hblank true ∧ s.vdp.hblank = false ∧ s.io.hperiod ≤ s.io.hcounter) ∨
  (k = .vint ∧ j = .vblank true ∧ s.vdp.vblank = false) ∨
  (k = .vres ∧ j = .restart ∧ s.io.resetEnable = true) ∨
  (k = .cmd ∧
    ((∃ i l d, j = .cmdreqWr i l d ∧ l ≠ .upper ∧ d.getLsbD (cmdBit c) = true) ∨
      (∃ i l a d, j = writeOn l i a d ∧ SetsBit i .cmdreq (cmdBit c) l a d) ∨
      (j = .dreqStep ∧ DreqCommands c s) ∨
      (j = .audioStep ∧ DreqCommands c (pwmTimerStep s)) ∨
      (∃ x : CoreId, j = coreStepOf x ∧ NormalStepWrites x (SetsBit x.init .cmdreq (cmdBit c)) s)))

/-- The causes by which an operation clears an active bit (10_state.md R72, 42_interrupt.md R224). -/
def ClearedBy (j : Instr) (s : State) (c : CoreId) (k : Source) : Prop :=
  (∃ l d, j = .irqackWr c.init l d ∧ l ≠ .upper ∧ d.getLsbD k.code.toNat = true) ∨
  (∃ l a d, j = writeOn l c.init a d ∧ SetsBit c.init .irqack k.code.toNat l a d) ∨
  (∃ r, j = .power r) ∨
  (j = coreStepOf c ∧ NormalStepWrites c (SetsBit c.init .irqack k.code.toNat) s)

theorem raisedBy_cmd {j : Instr} {s : State} {c : CoreId} {k : Source} (hk : k = .cmd)
    (h : (∃ i l d, j = .cmdreqWr i l d ∧ l ≠ .upper ∧ d.getLsbD (cmdBit c) = true) ∨
      (∃ i l a d, j = writeOn l i a d ∧ SetsBit i .cmdreq (cmdBit c) l a d) ∨
      (j = .dreqStep ∧ DreqCommands c s) ∨
      (j = .audioStep ∧ DreqCommands c (pwmTimerStep s)) ∨
      (∃ x : CoreId, j = coreStepOf x ∧ NormalStepWrites x (SetsBit x.init .cmdreq (cmdBit c)) s)) :
    RaisedBy j s c k := .inr (.inr (.inr (.inr (.inr ⟨hk, h⟩))))

theorem raisedBy_pwm {j : Instr} {s : State} {c : CoreId} {k : Source} (hk : k = .pwm) (hirq : s.pwm.dreqIRQ = true)
    (hempty : tickEmpties s.pwm = true)
    (h : j = .sampleTick ∨ ((j = .pwmTimerStep ∨ j = .audioStep) ∧ s.pwm.periods ≤ s.pwm.counter + 1)) :
    RaisedBy j s c k := .inr (.inl ⟨hk, hirq, hempty, h⟩)

/-- What an operation does to an active bit. -/
theorem active_performed {j : Instr} {s u : State} (hj : Performed j s u) (c : CoreId) (k : Source) :
    BitFate (RaisedBy j s c k) (ClearedBy j s c k) (activeBit s c k) (activeBit u c k) := by
  cases hj with
  | read i l g _ _ =>
    rw [targetRead_eq]
    exact .kept rfl
  | regWrite r i l d _ =>
    refine (regWrite_fate c k i r l d s).imp ?_ ?_
    · rintro ⟨hk, rfl, hl, hd⟩
      exact raisedBy_cmd hk (.inl ⟨i, l, d, rfl, hl, hd⟩)
    · rintro ⟨rfl, rfl, hl, hd⟩
      exact .inl ⟨l, d, rfl, hl, hd⟩
  | busWrite l i a d _ =>
    refine (busWrite_fate c k i l a d s).imp ?_ ?_
    · exact fun ⟨hk, hset⟩ => raisedBy_cmd hk (.inr (.inl ⟨i, l, a, d, rfl, hset⟩))
    · rintro ⟨rfl, hset⟩
      exact .inr (.inl ⟨l, a, d, rfl, hset⟩)
  | windowWrite i l g d _ _ _ hg => exact .kept (targetWrite_activeBit c k hg i l d s)
  | power r _ =>
    have off : activeBit (power r s) c k = false := by
      rw [power_eq]
      cases c <;> exact SourceBits.get_none k
    exact .cleared (.inr (.inr (.inl ⟨r, rfl⟩))) off
  | restart _ => exact (restart_fate c k s).imp (fun ⟨hk, he⟩ => .inr (.inr (.inr (.inr (.inl ⟨hk, rfl, he⟩))))) False.elim
  | vblank b _ =>
    refine (vblankEvent_fate c k b s).imp ?_ False.elim
    rintro ⟨hk, rfl, hlow⟩
    exact .inr (.inr (.inr (.inl ⟨hk, rfl, hlow⟩)))
  | hblank b _ =>
    refine (hblankEvent_fate c k b s).imp ?_ False.elim
    rintro ⟨hk, rfl, hlow, hdue⟩
    exact .inr (.inr (.inl ⟨hk, rfl, hlow, hdue⟩))
  | coreStep x _ =>
    refine (coreStep_fate c k x s).imp ?_ ?_
    · exact fun ⟨hk, hw⟩ => raisedBy_cmd hk (.inr (.inr (.inr (.inr ⟨x, rfl, hw⟩))))
    · rintro ⟨rfl, hw⟩
      exact .inr (.inr (.inr ⟨rfl, hw⟩))
  | syncResolve q p rest _ _ _ =>
    unfold syncResolve
    split <;> exact .kept rfl
  | audioStep _ =>
    refine (audioBody_fate c k s).imp ?_ False.elim
    rintro (⟨hk, hirq, hempty, hdue⟩ | ⟨hk, hcmd⟩)
    · exact raisedBy_pwm hk hirq hempty (.inr ⟨.inr rfl, hdue⟩)
    · exact raisedBy_cmd hk (.inr (.inr (.inr (.inl ⟨rfl, hcmd⟩))))
  | pwmTimerStep =>
    exact (pwmTimerStep_fate c k s).imp
      (fun ⟨hk, hirq, hempty, hdue⟩ => raisedBy_pwm hk hirq hempty (.inr ⟨.inl rfl, hdue⟩)) False.elim
  | sampleTick =>
    exact (sampleTick_fate c k s).imp
      (fun ⟨hk, hirq, hempty⟩ => raisedBy_pwm hk hirq hempty (.inl rfl)) False.elim
  | fifoRead ch =>
    rw [fifoRead_eq]
    exact .kept rfl
  | fifoDrain ch =>
    rw [fifoDrain_eq]
    exact .kept rfl
  | dreqStep ha =>
    exact (dreqStep_fate c k s ha).imp (fun ⟨hk, hcmd⟩ => raisedBy_cmd hk (.inr (.inr (.inl ⟨rfl, hcmd⟩)))) False.elim
  | autofillStep _ => exact .kept (activeBit_autofillStep c k s)
  | irqRaise thr x q =>
    refine (irqRaise_fate c k x q s).imp ?_ False.elim
    rintro ⟨rfl, rfl⟩
    exact .inl ⟨thr, rfl⟩
  | irqDispatch x q _ =>
    obtain ⟨e, r, h⟩ := irqDispatch_changes x q s
    rw [h]
    exact .kept (activeBit_setRegs c k _ x r)
  | fbCommit thr => exact .kept (activeBit_fbCommit c k s)
  | selectFb thr v => exact .kept (activeBit_fbCommit c k { s with vdp := _ })
  | unload | scanline | hostAdvance | hostSync | fifoWrite | irqQuery _ _ | latchCommit => exact .kept rfl

/-- Settles O24. -/
theorem interruptBitsBelongToTheirConditions : Obligations.InterruptBitsBelongToTheirConditions := by
  intro j s t c k ht
  obtain ⟨u, r, hu, rfl⟩ := exec_next ht
  have fate : BitFate (RaisedBy j s c k) (ClearedBy j s c k) (activeBit s c k) (activeBit u c k) :=
    active_performed hu c k
  refine ⟨fun h0 h1 => ?_, fun h1 h0 => ?_⟩
  · cases fate with
    | kept h => exact nomatch (h1.symm.trans h).trans h0
    | raised h _ => exact h
    | cleared _ h => exact nomatch h1.symm.trans h
  · cases fate with
    | kept h => exact nomatch (h0.symm.trans h).trans h1
    | raised _ h => exact nomatch h0.symm.trans h
    | cleared h _ => exact h

end Sys2Proof.StateProofs
end

section
/-! Which operations are refused: out of the host's turn, out of a thread's turn, outside the operation that calls them
(40_scheduler.md R151, R157 to R162; 41_bus.md R204; 30_encoding.md R125). -/

namespace Sys2Proof.StateProofs
open Sys2Proof.Machine Sys2Proof.Laws

section
variable {s : State}

/-! ### Refusals of `exec` -/

theorem whenEnabled_refused {ok : Bool} (h : ¬ ok = true) (u : State) : whenEnabled ok u = .refused .notEnabled := by
  rw [Bool.eq_false_iff.mpr h]
  rfl

theorem not_mayIssue_host (h : ¬ HostTurn s) : ¬ MayIssue .h s := fun hm => h (hm rfl)

/-- The host events (30_encoding.md R124). -/
theorem exec_event_refused (h : ¬ HostTurn s) (b : Bool) (y : BitVec 9) (n : BitVec 32) {j : Instr}
    (hj : j ∈ [Instr.power b, .restart, .unload, .vblank b, .hblank b, .scanline y, .hostAdvance n, .hostSync]) :
    exec j s = .refused .notEnabled := by
  simp only [List.mem_cons, List.not_mem_nil, or_false] at hj
  rcases hj with rfl | rfl | rfl | rfl | rfl | rfl | rfl | rfl <;> exact hostEvent_refused s _ h

theorem exec_coreStepOf_refused {c : CoreId} (h : ¬ CoreTurn c s) :
    exec (coreStepOf c) s = .refused .notEnabled := by
  rw [exec_coreStepOf]
  exact whenEnabled_refused (mt (coreEnabled_iff c s).mp h) _

theorem exec_audioStep_refused (h : ¬ AudioTurn s) : exec .audioStep s = .refused .notEnabled :=
  whenEnabled_refused (mt (audioEnabled_iff s).mp h) _

theorem exec_syncResolve_refused {t : Agent} (h : s.token ≠ t ∨ s.alive t = false ∨ s.pend.get t = []) :
    exec (.syncResolve t) s = .refused .notEnabled := by
  show execSyncResolve t s = _
  unfold execSyncResolve
  split
  · next hp =>
    refine whenEnabled_refused (fun he => ?_) _
    obtain ⟨htoken, halive⟩ := Bool.and_eq_true_iff.mp he
    rcases h with h | h | h
    · exact h (eq_of_beq htoken)
    · exact Bool.false_ne_true (h.symm.trans halive)
    · exact nomatch h.symm.trans hp
  · rfl

/-! ### No step while the token holder does not exist -/

theorem alive_of_hostTurn (h : HostTurn s) : s.alive s.token = true := by
  rw [h.1]
  rfl

theorem alive_of_coreTurn {c : CoreId} (h : CoreTurn c s) : s.alive s.token = true := by
  rw [h.1]
  exact h.2.1

theorem alive_of_audioTurn (h : AudioTurn s) : s.alive s.token = true := by
  rw [h.1]
  exact h.2.1

/-- An operation that can be in progress is that of a token holder that exists. -/
theorem alive_of_canBeInside {op : Operation} (h : canBeInside op s = true) : s.alive s.token = true := by
  cases op
  · exact alive_of_hostTurn ((hostTurn_iff s).mp h)
  · exact alive_of_coreTurn ((coreEnabled_iff _ s).mp h)
  · exact alive_of_audioTurn ((audioEnabled_iff s).mp h)
  · exact alive_of_audioTurn ((audioEnabled_iff s).mp (Bool.and_eq_true_iff.mp h).1)

theorem alive_of_within {l : List Operation} (h : mayPerform (.within l) s = true) : s.alive s.token = true := by
  obtain ⟨op, -, -, hop⟩ := (mayPerform_within l s).mp h
  exact alive_of_canBeInside hop

theorem alive_of_transaction {i : Initiator} (hi : MayIssue i s) (h : mayPerform (initiatorPlace i) s = true) :
    s.alive s.token = true := by
  cases i
  · exact alive_of_hostTurn (hi rfl)
  · exact alive_of_within h
  · exact alive_of_within h
  · exact alive_of_within h

/-- Whatever a step performs, the token holder exists. -/
theorem alive_of_performed {j : Instr} {u : State} (hj : Performed j s u)
    (h : mayPerform (instrPlace j) s = true) : s.alive s.token = true := by
  cases hj with
  | read i l g hp hi => exact alive_of_transaction hi (hp ▸ h)
  | regWrite r i l d hi => exact alive_of_transaction hi (instrPlace_writeInstr r i l d ▸ h)
  | busWrite l i a d hi => exact alive_of_transaction hi (instrPlace_writeOn l i a d ▸ h)
  | windowWrite i l g d hp hi _ _ => exact alive_of_transaction hi (hp ▸ h)
  | power _ ht | restart ht | unload ht | vblank _ ht | hblank _ ht | scanline _ ht | hostAdvance _ ht | hostSync ht =>
    exact alive_of_hostTurn ht
  | coreStep c ht => exact alive_of_coreTurn ht
  | syncResolve q p rest hq ha _ => exact hq ▸ ha
  | audioStep ht => exact alive_of_audioTurn ht
  | irqQuery c hp | irqDispatch c k hp => exact alive_of_within (hp ▸ h)
  | pwmTimerStep | sampleTick | fifoWrite | fifoRead | fifoDrain | dreqStep | autofillStep | irqRaise | latchCommit
  | fbCommit | selectFb => exact alive_of_within h

theorem alive_of_step {t : State} (h : step s = .next t) : s.alive s.token = true := by
  rcases step_cases h with ⟨i, hi, -⟩ | ⟨w, rest, i, -, -, -, hm, he⟩
  · exact (internalStep_eq_some s i hi).2.1
  · obtain ⟨u, r, hu, -⟩ := exec_next he
    exact alive_of_performed (s := { s with ops := rest }) hu hm

/-! ### A presented word -/

/-- The next presented word is what a step looks at. -/
def Presents (s : State) (w : OpWord) (rest : List OpWord) : Prop := internalStep s = none ∧ s.ops = w :: rest

variable {w : OpWord} {rest : List OpWord} {j : Instr}

theorem step_presented (hs : Presents s w rest) (hd : decode w = some j) :
    step s = if mayPerform (instrPlace j) s then exec j { s with ops := rest } else .refused .notEnabled := by
  obtain ⟨hnone, hops⟩ := hs
  rw [step, hnone]
  dsimp only
  rw [hostStep, hops]
  dsimp only
  rw [hd]

theorem step_performs (hs : Presents s w rest) (hd : decode w = some j) (hm : mayPerform (instrPlace j) s = true) :
    step s = exec j { s with ops := rest } := by rw [step_presented hs hd, if_pos hm]

theorem step_refused (hs : Presents s w rest) (hd : decode w = some j) (hm : ¬ mayPerform (instrPlace j) s = true) :
    step s = .refused .notEnabled := by rw [step_presented hs hd, if_neg hm]

/-- An inner operation is refused where none of its callers is in progress in its turn. -/
theorem step_refused_within (hs : Presents s w rest) (hd : decode w = some j) {l : List Operation}
    (hp : instrPlace j = .within l) (hl : ∀ op ∈ l, s.inside = some op → ¬ canBeInside op s = true) :
    step s = .refused .notEnabled := by
  refine step_refused hs hd fun hm => ?_
  rw [hp, mayPerform_within] at hm
  obtain ⟨op, hop, hin, hcan⟩ := hm
  exact hl op hop hin hcan

/-- An operation of its own is refused inside another. -/
theorem step_refused_alone (hs : Presents s w rest) (hd : decode w = some j) (hp : instrPlace j = .alone)
    (hin : s.inside ≠ none) : step s = .refused .notEnabled := by
  refine step_refused hs hd fun hm => hin ?_
  rwa [hp, mayPerform_alone] at hm

/-- The one caller of an operation performed at one place. -/
theorem step_refused_within_one (hs : Presents s w rest) (hd : decode w = some j) {op : Operation}
    (hp : instrPlace j = .within [op]) (hn : ¬ (s.inside = some op ∧ canBeInside op s = true)) :
    step s = .refused .notEnabled :=
  step_refused_within hs hd hp fun op' hop hin hcan => by
    obtain rfl := List.mem_singleton.mp hop
    exact hn ⟨hin, hcan⟩

/-- A caller of agent `t` is in progress only while `t` holds the token and is not synchronising. -/
theorem turn_of_caller {t : Agent} {op : Operation} (hop : op ∈ callers t) (h : canBeInside op s = true) :
    s.token = t ∧ s.pend.get t = [] := by
  cases t
  · obtain rfl := List.mem_singleton.mp hop
    exact (hostTurn_iff s).mp h
  · obtain rfl := List.mem_singleton.mp hop
    obtain ⟨htoken, -, hpend⟩ := (coreEnabled_iff .m s).mp h
    exact ⟨htoken, hpend⟩
  · obtain rfl := List.mem_singleton.mp hop
    obtain ⟨htoken, -, hpend⟩ := (coreEnabled_iff .s s).mp h
    exact ⟨htoken, hpend⟩
  · have enabled : audioEnabled s = true := by
      simp only [callers, List.mem_cons, List.not_mem_nil, or_false] at hop
      rcases hop with rfl | rfl
      · exact h
      · exact (Bool.and_eq_true_iff.mp h).1
    obtain ⟨htoken, -, hpend⟩ := (audioEnabled_iff s).mp enabled
    exact ⟨htoken, hpend⟩

theorem busCaller_mem_callers (t : Agent) : busCaller t ∈ callers t := by cases t <;> simp [busCaller, callers]

/-- A sub-procedure of an agent that is out of turn, or inside none of its callers. -/
theorem step_refused_caller (hs : Presents s w rest) (hd : decode w = some j) {t : Agent} {l : List Operation}
    (hp : instrPlace j = .within l) (hl : ∀ op ∈ l, op ∈ callers t)
    (hn : s.token ≠ t ∨ s.pend.get t ≠ [] ∨ ∀ op ∈ callers t, s.inside ≠ some op) :
    step s = .refused .notEnabled :=
  step_refused_within hs hd hp fun op hop hin hcan => by
    obtain ⟨htoken, hpend⟩ := turn_of_caller (hl op hop) hcan
    rcases hn with h | h | h
    · exact h htoken
    · exact h hpend
    · exact h op (hl op hop) hin

/-! ### Transactions -/

/-- A generic transaction presented: performed where its initiator's stand, refused elsewhere. -/
theorem step_transaction (hs : Presents s w rest) {i : Initiator} {l : Lanes} {a : Long} {d : Word}
    (hj : j = readOn l i a ∨ j = writeOn l i a d) (hd : decodeAt .generic w = some j) :
    (mayPerform (initiatorPlace i) s = true → step s = exec j { s with ops := rest }) ∧
      (¬ mayPerform (initiatorPlace i) s = true → step s = .refused .notEnabled) := by
  obtain ⟨j', hd', hp, hexec⟩ := decode_transaction hj hd
  rw [← hp, ← hexec]
  exact ⟨step_performs hs hd', step_refused hs hd'⟩

theorem mayPerform_dreq_iff : mayPerform (initiatorPlace .dreq) s = true ↔
    s.inside = some .dreqStep ∧ AudioTurn s ∧ s.dreq.active = true := by
  rw [mayPerform_dreq, AudioTurn]
  tauto

/-! ### Events -/

/-- A field of an argument outside the bits its mask allows is 0. -/
theorem field_eq_zero_of_mask {arg mask : BitVec 32} (h : arg &&& ~~~mask = 0) {k n : Nat} (hkn : k + n = 32)
    (hm : ∀ i < n, mask.getLsbD (k + i) = false) : arg.extractLsb' k n = 0 := by
  ext i hi
  have inside : k + i < 32 := by omega
  have bit : (arg &&& ~~~mask).getLsbD (k + i) = false := by rw [h]; exact BitVec.getLsbD_zero
  rw [BitVec.getLsbD_and, BitVec.getLsbD_not, hm i hi, decide_eq_true inside] at bit
  rw [BitVec.getElem_extractLsb']
  simpa using bit

/-- A word of the event table decodes to an operation of the host's own (30_encoding.md R124). -/
theorem decode_validEvent (h : ValidEvent w) : ∃ j, decode w = some j ∧ instrPlace j = .alone := by
  obtain ⟨hclass, hz, e, he, hop, harg⟩ := h
  have event (lvl : Level) : decodeAt lvl w = decodeEvent e.1 0 (w.extractLsb' 0 32) := by
    rw [decodeAt, if_neg (by rw [hclass]; decide), if_pos hclass, hop, hz]
  suffices hev : ∃ j, decodeEvent e.1 0 (w.extractLsb' 0 32) = some j ∧ instrPlace j = .alone by
    obtain ⟨j, hj, hp⟩ := hev
    refine ⟨j, ?_, hp⟩
    rw [decode, event, hj]
    dsimp only
    split
    · rw [event, hj]
    · rfl
  generalize w.extractLsb' 0 32 = arg at harg
  have whole (h0 : arg &&& ~~~(0 : BitVec 32) = 0) : arg = 0 := by
    rwa [show ~~~(0 : BitVec 32) = BitVec.allOnes 32 by decide, BitVec.and_allOnes] at h0
  have flag (h1 : arg &&& ~~~(1 : BitVec 32) = 0) : arg.extractLsb' 1 31 = 0 :=
    field_eq_zero_of_mask h1 rfl (by decide)
  simp only [eventTable, List.mem_cons, List.not_mem_nil, or_false] at he
  rcases he with rfl | rfl | rfl | rfl | rfl | rfl | rfl | rfl
  · exact ⟨.power (flagOf (arg.extractLsb' 0 1)), by simp [decodeEvent, flag harg], rfl⟩
  · exact ⟨.restart, by simp [decodeEvent, whole harg], rfl⟩
  · exact ⟨.unload, by simp [decodeEvent, whole harg], rfl⟩
  · exact ⟨.vblank (flagOf (arg.extractLsb' 0 1)), by simp [decodeEvent, flag harg], rfl⟩
  · exact ⟨.hblank (flagOf (arg.extractLsb' 0 1)), by simp [decodeEvent, flag harg], rfl⟩
  · have line : arg.extractLsb' 9 23 = 0 := field_eq_zero_of_mask harg rfl (by decide)
    exact ⟨.scanline (arg.extractLsb' 0 9), by simp [decodeEvent, line], rfl⟩
  · exact ⟨.hostAdvance arg, by simp [decodeEvent], rfl⟩
  · exact ⟨.hostSync, by simp [decodeEvent, whole harg], rfl⟩

end

/-- Settles O53: the refusals of `exec` by their conditions, those of `step` by the place of the presented word. -/
theorem operationsOutOfTurnAreRefused : Obligations.OperationsOutOfTurnAreRefused := by
  refine ⟨fun s => ⟨fun hn => ⟨fun l a d => ⟨?_, ?_⟩, fun b y n j hj => exec_event_refused hn b y n hj⟩,
    fun c hn => exec_coreStepOf_refused hn, exec_audioStep_refused, fun t hn => exec_syncResolve_refused hn,
    fun hn t ht => Bool.false_ne_true (hn.symm.trans (alive_of_step ht))⟩, fun s w rest hturn hops => ?_⟩
  · rw [exec_readOn]
    exact transactRead_refused .h l _ s (not_mayIssue_host hn)
  · rw [exec_writeOn]
    exact transactWrite_refused .h l _ d s (not_mayIssue_host hn)
  have hs : Presents s w rest := ⟨(internalStep_eq_none s).mpr (by tauto), hops⟩
  have audio : canBeInside .audioStep s = true ↔ AudioTurn s := audioEnabled_iff s
  have normal (c : CoreId) : canBeInside (.normalStep c) s = true ↔ CoreTurn c s := coreEnabled_iff c s
  refine ⟨fun i l a d j hj hd => ?_, fun ch hn hd => ?_, fun thr c ch k v b hn hd => ?_, fun ch v b hn hd => ?_,
    fun hn hd => ?_, fun k hn hd => ?_, fun k hn hd => ?_, fun hev hin => ?_⟩
  · obtain ⟨performs, refuses⟩ := step_transaction hs hj hd
    refine ⟨?_, ?_, ?_⟩
    · rintro c rfl
      exact ⟨fun h => performs ((mayPerform_core c s).mpr h), fun h => refuses (mt (mayPerform_core c s).mp h)⟩
    · rintro rfl
      exact ⟨fun h => performs (mayPerform_dreq_iff.mpr h), fun h => refuses (mt mayPerform_dreq_iff.mp h)⟩
    · rintro rfl hin
      exact refuses fun h => hin ((mayPerform_alone s).mp h)
  · rw [← audio] at hn
    simp only [List.mem_cons, List.not_mem_nil, or_false] at hd
    rcases hd with hd | hd | hd | hd | hd | hd <;> exact step_refused_within_one hs hd rfl hn
  · have bus : ∀ op ∈ [busCaller thr], op ∈ callers thr := by simp [busCaller_mem_callers]
    simp only [List.mem_cons, List.not_mem_nil, or_false] at hd
    rcases hd with hd | hd | hd | hd
    · exact step_refused_caller hs hd rfl bus hn
    · exact step_refused_caller hs hd rfl (fun _ h => h) hn
    · exact step_refused_caller hs hd rfl (fun _ h => h) hn
    · exact step_refused_caller hs hd rfl bus hn
  · simp only [List.mem_cons, List.not_mem_nil, or_false] at hd
    rcases hd with hd | hd <;> exact step_refused_within_one hs hd rfl fun h => hn h.1
  · exact step_refused_within_one hs hd rfl fun ⟨hin, hcan⟩ => hn ⟨hin, (hostTurn_iff s).mp hcan⟩
  · rw [← normal] at hn
    simp only [List.mem_cons, List.not_mem_nil, or_false] at hd
    rcases hd with hd | hd <;> exact step_refused_within_one hs hd rfl hn
  · rw [← normal] at hn
    simp only [List.mem_cons, List.not_mem_nil, or_false] at hd
    rcases hd with hd | hd <;> exact step_refused_within_one hs hd rfl hn
  · obtain ⟨j, hd, hp⟩ := decode_validEvent hev
    exact step_refused_alone hs hd hp hin

end Sys2Proof.StateProofs
end

section
/-! # The family of the memory (spec/20_memory.md)

The address map at every address, the contention of an access, and the generic transactions by address (20_memory.md
R84 to R97; 41_bus.md R190 to R195). -/

namespace Sys2Proof.MemoryProofs
open Sys2Proof.Machine Sys2Proof.Laws Sys2Proof.StateProofs

/- Elaborate these proofs one after the other. All at once, while the kernel still checks the text above, they can need
more threads than the check's limit on memory has room for. -/
set_option deprecated.oldSectionVars true

/-! ### The regions of the map -/

/-- The page is decoded by word: bit 0 of the offset is ignored (20_memory.md R92). -/
theorem pageEntry_congr {off off' : BitVec 10} (h : off.toNat / 2 = off'.toNat / 2) :
    pageEntry off = pageEntry off' := by
  have palette : (0x4000 + off.toNat - 0x4200) / 2 = (0x4000 + off'.toNat - 0x4200) / 2 := by omega
  rw [pageEntry_def, pageEntry_def, h, palette]
  exact if_congr (by omega) rfl rfl

theorem targetOf_page (i : Initiator) {a : Long} (h0 : 0x4000 ≤ a.toNat) (h1 : a.toNat < 0x4400) :
    targetOf i a = (pageEntry (a.setWidth 10)).target ∧ (a.setWidth 10).toNat = a.toNat - 0x4000 := by
  refine ⟨?_, by rw [BitVec.toNat_setWidth]; omega⟩
  rw [targetOf_def, if_neg (by omega), if_pos (by omega)]

/-- Both byte addresses of a register reach it. -/
theorem targetOf_reg (i : Initiator) (r : Reg) {a : Long} (h : a.toNat / 2 = (0x4000 + r.offset.toNat) / 2) :
    targetOf i a = .reg r := by
  have hoff := r.offset.isLt
  obtain ⟨page, off⟩ := targetOf_page i (a := a) (by omega) (by omega)
  have word : (a.setWidth 10).toNat / 2 = r.offset.toNat / 2 := by omega
  rw [page, pageEntry_congr word, pageEntry_offset, PageEntry.target]

/-- The offsets of the registers, between the reserved gaps (10_state.md R57, R61, R62). -/
theorem offset_between_gaps : ∀ r ∈ Reg.all, r.offset.toNat < 0x00E ∨
    (0x020 ≤ r.offset.toNat ∧ r.offset.toNat < 0x038) ∨ (0x040 ≤ r.offset.toNat ∧ r.offset.toNat < 0x04C) ∨
    (0x100 ≤ r.offset.toNat ∧ r.offset.toNat < 0x10C) := by decide

theorem targetOf_gap (i : Initiator) {a : Long}
    (h : (0x400E ≤ a.toNat ∧ a.toNat ≤ 0x401F) ∨ (0x4038 ≤ a.toNat ∧ a.toNat ≤ 0x403F) ∨
      (0x404C ≤ a.toNat ∧ a.toNat ≤ 0x40FF) ∨ (0x410C ≤ a.toNat ∧ a.toNat ≤ 0x41FF)) :
    targetOf i a = .reserved := by
  obtain ⟨page, off⟩ := targetOf_page i (a := a) (by omega) (by omega)
  have noReg : Reg.all.find? (fun r => r.offset.toNat / 2 == (a.setWidth 10).toNat / 2) = none := by
    refine List.find?_eq_none.mpr fun r hr hfound => ?_
    have same := eq_of_beq hfound
    have gaps := offset_between_gaps r hr
    omega
  rw [page, pageEntry_def, if_neg (by omega), noReg, PageEntry.target]

theorem targetOf_paletteAt (i : Initiator) {a : Long} (h0 : 0x4200 ≤ a.toNat) (h1 : a.toNat < 0x4400) :
    targetOf i a = .palette ((a.toNat - 0x4200) / 2) := by
  obtain ⟨page, off⟩ := targetOf_page i (a := a) (by omega) h1
  have idx : (0x4000 + (a.toNat - 0x4000) - 0x4200) / 2 = (a.toNat - 0x4200) / 2 := by omega
  rw [page, pageEntry_def, off, if_pos (by omega), idx, PageEntry.target]

theorem targetOf_vramAt (i : Initiator) {a : Long} (h0 : 0x40000 ≤ a.toNat) (h1 : a.toNat < 0x60000) :
    targetOf i a = .vram ((a.toNat - 0x40000) / 2) := by
  rw [targetOf_def, if_neg (by omega), if_neg (by omega), if_pos (by omega)]

theorem targetOf_sdramAt (i : Initiator) {a : Long} (h0 : 0x60000 ≤ a.toNat) (h1 : a.toNat < 0xA0000) :
    targetOf i a = .sdram ((a.toNat - 0x60000) / 2) := by
  rw [targetOf_def, if_neg (by omega), if_neg (by omega), if_neg (by omega), if_pos (by omega)]

theorem targetOf_externalAt {i : Initiator} {a : Long} (h : ExternalAt i a) : targetOf i a = .external (evenAddr a) := by
  rw [targetOf_def]
  rcases h with ⟨hboot, hi⟩ | ⟨hlow, hhigh⟩ | habove
  · rw [if_pos (by omega)]
    rcases hi with rfl | rfl <;> rfl
  · rw [if_neg (by omega), if_neg (by omega), if_neg (by omega), if_neg (by omega)]
  · rw [if_neg (by omega), if_neg (by omega), if_neg (by omega), if_neg (by omega)]

/-- Settles O7, region by region of the map. -/
theorem addressMapFollowsTheTable : Obligations.AddressMapFollowsTheTable := by
  intro i a
  refine ⟨fun ha c hc => ?_, fun p hp ha => ?_, targetOf_gap i, fun h0 h1 => targetOf_paletteAt i h0 (by omega),
    fun h0 h1 => targetOf_vramAt i h0 (by omega), fun h0 h1 => targetOf_sdramAt i h0 (by omega), targetOf_externalAt⟩
  · rw [init_of_core? hc]
    exact targetOf_boot c ha
  · have place : p.1 = 0x4000 + p.2.offset.toNat ∧ p.1 % 2 = 0 := by
      clear ha
      revert p
      decide
    exact targetOf_reg i p.2 (by omega)

/-! ### Contention -/

/-- The regions of the map, one case each: the boot ROM of a core, the register page, the three memories, and the
external space. -/
theorem region_cases (i : Initiator) (a : Long) : (a.toNat < 0x4000 ∧ ∃ c : CoreId, i = c.init) ∨
    (0x4000 ≤ a.toNat ∧ a.toNat < 0x4200) ∨ (0x4200 ≤ a.toNat ∧ a.toNat < 0x4400) ∨
    (0x40000 ≤ a.toNat ∧ a.toNat < 0x60000) ∨ (0x60000 ≤ a.toNat ∧ a.toNat < 0xA0000) ∨ ExternalAt i a := by
  have initiator : (∃ c : CoreId, i = c.init) ∨ i = .h ∨ i = .dreq := by
    cases i
    · exact .inr (.inl rfl)
    · exact .inl ⟨.m, rfl⟩
    · exact .inl ⟨.s, rfl⟩
    · exact .inr (.inr rfl)
  unfold ExternalAt
  rcases initiator with hi | hi
  · simp only [hi, and_true]
    omega
  · simp only [hi, and_true]
    omega

/-- Below the palette no page entry is a memory. -/
theorem targetOf_registerPage (i : Initiator) {a : Long} (h0 : 0x4000 ≤ a.toNat) (h1 : a.toNat < 0x4200) :
    (∃ r, targetOf i a = .reg r) ∨ targetOf i a = .reserved := by
  obtain ⟨page, off⟩ := targetOf_page i (a := a) h0 (by omega)
  rw [page, pageEntry_def, if_neg (by omega)]
  split
  · next r _ => exact .inl ⟨r, rfl⟩
  · exact .inr rfl

/-- An access is contended as 20_memory.md R96 says by address. -/
theorem contended_targetOf (i : Initiator) (a : Long) (s : State) :
    contended i (targetOf i a) s = true ↔ ContendedAt i a s := by
  unfold ContendedAt
  rcases region_cases i a with ⟨h, c, rfl⟩ | h | h | h | h | h
  · rw [targetOf_boot c h]
    exact ⟨nofun, by omega⟩
  · rcases targetOf_registerPage i h.1 h.2 with ⟨r, e⟩ | e <;> rw [e] <;> exact ⟨nofun, by omega⟩
  · have here : ¬ 0x40000 ≤ a.toNat ∧ ¬ 0x60000 ≤ a.toNat := by omega
    rw [targetOf_paletteAt i h.1 h.2]
    simp [contended, paletteEngaged, h, here]
  · have here : ¬ a.toNat < 0x4400 ∧ ¬ 0x60000 ≤ a.toNat := by omega
    rw [targetOf_vramAt i h.1 h.2]
    simp [contended, paintEngaged, h, here, and_comm]
  · have here : ¬ a.toNat < 0x4400 ∧ ¬ a.toNat < 0x60000 := by omega
    rw [targetOf_sdramAt i h.1 h.2]
    simp [contended, h, here]
  · rw [targetOf_externalAt h]
    unfold ExternalAt at h
    exact ⟨nofun, by omega⟩

theorem waitOf_targetOf (i : Initiator) (a : Long) (s : State) :
    waitOf i (targetOf i a) s = if ContendedAt i a s then Config.fbWait else 0 :=
  if_congr (contended_targetOf i a s) rfl rfl

end Sys2Proof.MemoryProofs
end

section
/-! The generic transactions at every address (20_memory.md R94 to R96; 41_bus.md R190 to R195), and the windows of
VRAM, of the boot ROMs and of the reserved addresses. -/

namespace Sys2Proof.MemoryProofs
open Sys2Proof.Machine Sys2Proof.Laws Sys2Proof.StateProofs

/- Elaborate these proofs one after the other. All at once, while the kernel still checks the text above, they can need
more threads than the check's limit on memory has room for. -/
set_option deprecated.oldSectionVars true

/-! ### The lanes as masks -/

/-- The upper byte of one word and the lower byte of another. -/
theorem joinBytes_hi_lo_of (x y : Word) : joinBytes (hiByte x) (loByte y) = (x &&& 0xFF00) ||| (y &&& 0x00FF) := by
  refine BitVec.eq_of_getLsbD_eq fun k hk => ?_
  have masks : (0xFF00 : Word).getLsbD k = decide (8 ≤ k) ∧ (0x00FF : Word).getLsbD k = decide (k < 8) := by
    revert k
    decide
  obtain ⟨hupper, hlower⟩ := masks
  rw [joinBytes, BitVec.getLsbD_append, hiByte, loByte, BitVec.getLsbD_extractLsb', BitVec.getLsbD_extractLsb',
    BitVec.getLsbD_or, BitVec.getLsbD_and, BitVec.getLsbD_and, hupper, hlower]
  by_cases hlow : k < 8
  · simp [hlow]
  · have above : k - 8 < 8 ∧ 8 + (k - 8) = k := by omega
    simp [hlow, above, Nat.not_lt.mp hlow]

theorem mask_upper (v : Word) : Lanes.mask .upper v = v &&& 0xFF00 := by
  have bytes : Lanes.mask .upper v = joinBytes (hiByte v) (loByte 0) := rfl
  rw [bytes, joinBytes_hi_lo_of]
  simp

theorem mask_lower (v : Word) : Lanes.mask .lower v = v &&& 0x00FF := by
  have bytes : Lanes.mask .lower v = joinBytes (hiByte 0) (loByte v) := rfl
  rw [bytes, joinBytes_hi_lo_of]
  simp

/-! ### Generic transactions -/

theorem targetOf_ne_external {i : Initiator} {a : Long} (h : ¬ ExternalAt i a) (x : Long) :
    targetOf i a ≠ .external x := by
  rcases region_cases i a with ⟨ha, c, rfl⟩ | ha | ha | ha | ha | ha
  · rw [targetOf_boot c ha]
    exact nofun
  · rcases targetOf_registerPage i ha.1 ha.2 with ⟨r, e⟩ | e <;> rw [e] <;> exact nofun
  · rw [targetOf_paletteAt i ha.1 ha.2]
    exact nofun
  · rw [targetOf_vramAt i ha.1 ha.2]
    exact nofun
  · rw [targetOf_sdramAt i ha.1 ha.2]
    exact nofun
  · exact absurd ha h

/-- Inside the block a read has no effect, and the lanes select bytes of the same word. -/
theorem targetRead_inside {g : Target} (hg : ∀ x, g ≠ .external x) (i : Initiator) (l : Lanes) (s : State) :
    targetRead i l g s = ((targetRead i .word g s).1, s) := by
  cases g with
  | external x => exact absurd rfl (hg x)
  | _ => rfl

theorem exec_readOn_inside {i : Initiator} {a : Long} (ha : ¬ ExternalAt i a) {s : State} (hm : MayIssue i s)
    (l : Lanes) : exec (readOn l i a) s = .next { s with
      result := .bus (l.mask (targetRead i .word (targetOf i a) s).1)
        (if ContendedAt i a s then Config.fbWait else 0) } := by
  rw [exec_readOn, transactRead_eq i l _ s hm, targetRead_inside (targetOf_ne_external ha), waitOf_targetOf]
  rfl

theorem exec_readOn_external {i : Initiator} {a : Long} (ha : ExternalAt i a) {s : State} (hm : MayIssue i s)
    (l : Lanes) : exec (readOn l i a) s = .next { s with
      extLog := s.extLog ++ [⟨.read, l, a &&& 0xFFFFFFFE, 0⟩]
      result := .bus (l.mask (Config.extRead (extView s) (s.extLog ++ [⟨.read, l, a &&& 0xFFFFFFFE, 0⟩]) l
        (a &&& 0xFFFFFFFE))) 0 } := by
  rw [exec_readOn, transactRead_eq i l _ s hm, targetOf_externalAt ha]
  rfl

/-- Settles O10: the three lane selections read the same word of the same target. -/
theorem genericReadsHaveNoSideEffect : Obligations.GenericReadsHaveNoSideEffect := by
  intro i a s hm
  refine ⟨fun ha => ⟨(targetRead i .word (targetOf i a) s).1, ?_, ?_, ?_⟩,
    fun ha l => ⟨_, exec_readOn_external ha hm l⟩⟩
  · have word := exec_readOn_inside ha hm .word
    rwa [mask_word] at word
  · have upper := exec_readOn_inside ha hm .upper
    rwa [mask_upper] at upper
  · have lower := exec_readOn_inside ha hm .lower
    rwa [mask_lower] at lower

theorem exec_writeOn_eq {i : Initiator} {s : State} (hm : MayIssue i s) (l : Lanes) (a : Long) (d : Word) :
    exec (writeOn l i a d) s = .next (setResult (targetWrite i l (targetOf i a) d s)
      (.bus 0 (if ContendedAt i a s then Config.fbWait else 0))) := by
  rw [exec_writeOn, transactWrite_eq i l _ d s hm, waitOf_targetOf]

/-- Settles O11: what a write can touch is said once for every target, by `targetWrite_keeps`. -/
theorem genericWritesComplete : Obligations.GenericWritesComplete := by
  intro i a d s hm j hj
  obtain ⟨l, rfl⟩ : ∃ l, j = writeOn l i a d := by
    simp only [List.mem_cons, List.not_mem_nil, or_false] at hj
    rcases hj with rfl | rfl | rfl
    · exact ⟨.word, rfl⟩
    · exact ⟨.upper, rfl⟩
    · exact ⟨.lower, rfl⟩
  exact ⟨_, exec_writeOn_eq hm l a d, rfl, sameScheduler_of_keeps (targetWrite_keeps i l _ d s) _⟩

/-! ### Windows -/

theorem wordStored_writeWord (s : State) (m : MemId) (w : Nat) (l : Lanes) (d : Word) :
    WordStored s (writeWord s m w l d) m w l d :=
  ⟨readByte_writeWord_even s m w l d, readByte_writeWord_odd s m w l d, readByte_writeWord_other s m w l d⟩

/-- A write transaction of a memory's word stores it and does nothing else. -/
theorem storedOnly_writeWord (s : State) (m : MemId) (w : Nat) (l : Lanes) (d : Word) (wait : Nat) :
    StoredOnly s (setResult (writeWord s m w l d) (.bus 0 wait)) m w l d wait := by
  refine ⟨?_, wordStored_writeWord s m w l d⟩
  rw [writeWord_eq]
  rfl

theorem waitOf_vram (i : Initiator) (idx : Nat) (s : State) : waitOf i (.vram idx) s =
    if i ≠ .dreq ∧ (s.vdp.autofillActive = true ∨ (s.dreq.active = true ∧ s.dreq.vram = true))
      then Config.fbWait else 0 :=
  if_congr (by simp [contended, paintEngaged, and_comm]) rfl rfl

/-- Settles O15. The bank that `backBank` names is the one that is not displayed. -/
theorem vramBootRomAndReservedWindows : Obligations.VramBootRomAndReservedWindows := by
  refine ⟨fun i l off d s hm => ?_, fun c i l off r d s => ⟨?_, ?_, fun hm => ⟨?_, ?_⟩⟩⟩
  · dsimp only
    rw [← waitOf_vram i (off.toNat / 2)]
    exact ⟨transactRead_eq i l (.vram _) s hm,
      _, transactWrite_eq i l (.vram _) d s hm, storedOnly_writeWord s (backBank s) _ l d _⟩
  · exact transactRead_eq c.init l (.bootrom c _) s (mayIssue_core c s)
  · exact transactWrite_eq c.init l (.bootrom c _) d s (mayIssue_core c s)
  · have read := transactRead_eq i l .reserved s hm
    rwa [show (targetRead i l .reserved s).1 = 0 from rfl, mask_zero] at read
  · exact transactWrite_eq i l .reserved d s hm

end Sys2Proof.MemoryProofs
end

section
/-! PALETTE, VRAM and SDRAM as one memory addressed by word (20_memory.md R87). -/

namespace Sys2Proof.MemoryProofs
open Sys2Proof.Machine Sys2Proof.Laws Sys2Proof.StateProofs

/- Elaborate these proofs one after the other. All at once, while the kernel still checks the text above, they can need
more threads than the check's limit on memory has room for. -/
set_option deprecated.oldSectionVars true

/-! ### The even address -/

theorem evenAddr_eq_shift (a : Long) : evenAddr a = (a >>> 1) <<< 1 := by
  refine BitVec.eq_of_getLsbD_eq fun k hk => ?_
  have mask : (0xFFFFFFFE : Long).getLsbD k = decide (1 ≤ k) := by
    revert k
    decide
  rw [evenAddr, BitVec.getLsbD_and, mask, BitVec.getLsbD_shiftLeft, BitVec.getLsbD_ushiftRight]
  rcases k with _ | k
  · simp
  · simp [hk, Nat.add_comm 1 k]

/-- Bit 0 of the address is dropped (20_memory.md R92). -/
theorem evenAddr_toNat (a : Long) : (evenAddr a).toNat = 2 * (a.toNat / 2) := by
  have ha := a.isLt
  rw [evenAddr_eq_shift, BitVec.toNat_shiftLeft, BitVec.toNat_ushiftRight, Nat.shiftLeft_eq, Nat.shiftRight_eq_div_pow]
  omega

theorem evenAddr_eq_iff (a b : Long) : evenAddr a = evenAddr b ↔ a.toNat / 2 = b.toNat / 2 := by
  rw [← BitVec.toNat_inj, evenAddr_toNat, evenAddr_toNat]
  omega

/-! ### Words of the plain memories -/

/-- The word that an address of PALETTE, VRAM or SDRAM names: its memory and its index there. -/
def plainWord (s : State) (a : Long) : MemId × Nat :=
  if a.toNat < 0x4400 then (.palette, (a.toNat - 0x4200) / 2)
  else if a.toNat < 0x60000 then (backBank s, (a.toNat - 0x40000) / 2)
  else (.sdram, (a.toNat - 0x60000) / 2)

theorem targetRead_plain {a : Long} (ha : PlainMemoryAt a) (i : Initiator) (l : Lanes) (s : State) :
    targetRead i l (targetOf i a) s = (readWord s (plainWord s a).1 (plainWord s a).2, s) := by
  unfold PlainMemoryAt at ha
  unfold plainWord
  split
  · rw [targetOf_paletteAt i (by omega) (by omega)]
    rfl
  · split
    · rw [targetOf_vramAt i (by omega) (by omega)]
      rfl
    · rw [targetOf_sdramAt i (by omega) (by omega)]
      rfl

theorem targetWrite_plain {a : Long} (ha : PlainMemoryAt a) (i : Initiator) (l : Lanes) (d : Word) (s : State) :
    targetWrite i l (targetOf i a) d s = writeWord s (plainWord s a).1 (plainWord s a).2 l d := by
  unfold PlainMemoryAt at ha
  unfold plainWord
  split
  · rw [targetOf_paletteAt i (by omega) (by omega)]
    rfl
  · split
    · rw [targetOf_vramAt i (by omega) (by omega)]
      rfl
    · rw [targetOf_sdramAt i (by omega) (by omega)]
      rfl

/-- Both byte addresses of a word name it. -/
theorem plainWord_congr {a b : Long} (h : a.toNat / 2 = b.toNat / 2) (s : State) : plainWord s a = plainWord s b := by
  have index (k : Nat) : (a.toNat - 2 * k) / 2 = (b.toNat - 2 * k) / 2 := by omega
  have palette : (a.toNat - 0x4200) / 2 = (b.toNat - 0x4200) / 2 := index 0x2100
  have vram : (a.toNat - 0x40000) / 2 = (b.toNat - 0x40000) / 2 := index 0x20000
  have sdram : (a.toNat - 0x60000) / 2 = (b.toNat - 0x60000) / 2 := index 0x30000
  unfold plainWord
  rw [palette, vram, sdram]
  exact if_congr (by omega) rfl (if_congr (by omega) rfl rfl)

/-- The location of the even byte of the word an address names. -/
def plainLoc (s : State) (a : Long) : Nat := (plainWord s a).1.loc (2 * (plainWord s a).2)

theorem backBank_base (s : State) : (backBank s).base = 0x100000 ∨ (backBank s).base = 0x200000 := by
  unfold backBank
  split
  · exact .inl rfl
  · exact .inr rfl

/-- Different words of these regions share no byte. -/
theorem plainLoc_disjoint {a b : Long} (ha : PlainMemoryAt a) (hb : PlainMemoryAt b) (h : a.toNat / 2 ≠ b.toNat / 2)
    (s : State) : plainLoc s a + 1 < plainLoc s b ∨ plainLoc s b + 1 < plainLoc s a := by
  have bank := backBank_base s
  have hp : MemId.palette.base = 0x8000 ∧ MemId.sdram.base = 0x300000 := ⟨rfl, rfl⟩
  unfold PlainMemoryAt at ha hb
  have loc (x : Long) : (x.toNat < 0x4400 ∧ plainLoc s x = MemId.palette.base + 2 * ((x.toNat - 0x4200) / 2)) ∨
      (0x4400 ≤ x.toNat ∧ x.toNat < 0x60000 ∧ plainLoc s x = (backBank s).base + 2 * ((x.toNat - 0x40000) / 2)) ∨
      (0x60000 ≤ x.toNat ∧ plainLoc s x = MemId.sdram.base + 2 * ((x.toNat - 0x60000) / 2)) := by
    unfold plainLoc plainWord
    split
    · next hx => exact .inl ⟨hx, rfl⟩
    · next hx =>
      split
      · next hv => exact .inr (.inl ⟨Nat.not_lt.mp hx, hv, rfl⟩)
      · next hs => exact .inr (.inr ⟨Nat.not_lt.mp hs, rfl⟩)
  have hla := loc a
  have hlb := loc b
  omega

theorem readWord_writeWord_disjoint (s : State) {m m' : MemId} {w x : Nat} (l : Lanes) (d : Word)
    (h : m.loc (2 * w) + 1 < m'.loc (2 * x) ∨ m'.loc (2 * x) + 1 < m.loc (2 * w)) :
    readWord (writeWord s m w l d) m' x = readWord s m' x := by
  unfold MemId.loc at h
  unfold readWord
  rw [readByte_writeWord_other, readByte_writeWord_other] <;> unfold MemId.loc <;> omega

/-- What a read of one word returns after a write of another, or of the same one. -/
theorem readWord_plain_after_write {a b : Long} (ha : PlainMemoryAt a) (hb : PlainMemoryAt b) (l : Lanes) (d : Word)
    (s : State) :
    readWord (writeWord s (plainWord s a).1 (plainWord s a).2 l d) (plainWord s b).1 (plainWord s b).2 =
      if evenAddr a = evenAddr b then l.merge (readWord s (plainWord s b).1 (plainWord s b).2) d
      else readWord s (plainWord s b).1 (plainWord s b).2 := by
  by_cases h : a.toNat / 2 = b.toNat / 2
  · rw [if_pos ((evenAddr_eq_iff a b).mpr h), plainWord_congr h]
    exact readWord_writeWord_same s _ _ l d
  · rw [if_neg (mt (evenAddr_eq_iff a b).mp h)]
    exact readWord_writeWord_disjoint s l d (plainLoc_disjoint ha hb h s)

theorem merge_eq_masks (l : Lanes) (old d : Word) : l.merge old d = match l with
    | .word => d
    | .upper => (d &&& 0xFF00) ||| (old &&& 0x00FF)
    | .lower => (old &&& 0xFF00) ||| (d &&& 0x00FF) := by
  cases l
  · exact joinBytes_hi_lo d
  · exact joinBytes_hi_lo_of d old
  · exact joinBytes_hi_lo_of old d

/-! ### Reading back -/

theorem not_externalAt_of_plain {a : Long} (ha : PlainMemoryAt a) (i : Initiator) : ¬ ExternalAt i a := by
  unfold PlainMemoryAt at ha
  unfold ExternalAt
  omega

theorem exec_rd16_plain {b : Long} (hb : PlainMemoryAt b) {j : Initiator} {s : State} (hm : MayIssue j s) :
    exec (.rd16 j b) s = .next { s with
      result := .bus (readWord s (plainWord s b).1 (plainWord s b).2)
        (if ContendedAt j b s then Config.fbWait else 0) } := by
  have read := exec_readOn_inside (not_externalAt_of_plain hb j) hm .word
  rwa [targetRead_plain hb, mask_word] at read

/-- Settles O16: the write changes the bytes of one word, so the read returns the merge or what was there, and neither
the bank nor the contention moves. -/
theorem plainMemoryReturnsTheLastWrite : Obligations.PlainMemoryReturnsTheLastWrite := by
  intro i j l a b d old w s t ha hb hmi hmj hread hwrite
  rw [exec_rd16_plain hb hmj] at hread
  obtain ⟨hold, hwait⟩ : readWord s (plainWord s b).1 (plainWord s b).2 = old ∧
      (if ContendedAt j b s then Config.fbWait else 0) = w := by
    have same := congrArg State.result (Host.Outcome.next.inj hread)
    exact OpResult.bus.inj same
  have ht : t = { s with
      mem := (writeWord s (plainWord s a).1 (plainWord s a).2 l d).mem
      result := .bus 0 (if ContendedAt i a s then Config.fbWait else 0) } := by
    rw [exec_writeOn_eq hmi, targetWrite_plain ha, writeWord_eq] at hwrite
    exact (Host.Outcome.next.inj hwrite).symm
  have value : readWord t (plainWord t b).1 (plainWord t b).2 =
      if evenAddr a = evenAddr b then l.merge old d else old := by
    rw [← hold, ← readWord_plain_after_write ha hb l d s, writeWord_eq, ht]
    rfl
  have wait : (if ContendedAt j b t then Config.fbWait else 0) = w := by
    rw [← hwait, ht]
  have hmt : MayIssue j t := by
    rw [ht]
    exact hmj
  rw [merge_eq_masks] at value
  exact (exec_rd16_plain hb hmt).trans
    (congrArg₂ (fun v n => Host.Outcome.next { t with result := .bus v n }) value wait)

end Sys2Proof.MemoryProofs
end

section
/-! Operations inside an operation: the field `result` holds what the last operation returned and nothing reads it
(log entry 15), so a transaction made inside another operation is the transaction performed by itself. Long accesses
(20_memory.md R90; 41_bus.md R196) and the calls of an instruction (20_memory.md R97; 40_scheduler.md R150) rest on
this. -/

namespace Sys2Proof.MemoryProofs
open Sys2Proof.Machine Sys2Proof.Laws Sys2Proof.StateProofs

/- Elaborate these proofs one after the other. All at once, while the kernel still checks the text above, they can need
more threads than the check's limit on memory has room for. -/
set_option deprecated.oldSectionVars true

/-! ### What ignores the last result -/

/-- The operation neither reads nor writes `result`. -/
def IgnoresResult (f : State → State) : Prop := ∀ s r, f (setResult s r) = setResult (f s) r

theorem IgnoresResult.id : IgnoresResult fun s => s := fun _ _ => rfl

theorem IgnoresResult.comp {f g : State → State} (hf : IgnoresResult f) (hg : IgnoresResult g) :
    IgnoresResult fun s => f (g s) := fun s r => (congrArg f (hg s r)).trans (hf (g s) r)

theorem IgnoresResult.ite {c : State → Prop} [∀ s, Decidable (c s)] {f g : State → State}
    (hc : ∀ s r, c (setResult s r) ↔ c s) (hf : IgnoresResult f) (hg : IgnoresResult g) :
    IgnoresResult fun s => if c s then f s else g s := by
  intro s r
  show (if c (setResult s r) then f (setResult s r) else g (setResult s r)) = setResult (if c s then f s else g s) r
  by_cases h : c s
  · rw [if_pos h, if_pos ((hc s r).mpr h), hf]
  · rw [if_neg h, if_neg (mt (hc s r).mp h), hg]

theorem writeWord_ignores (m : MemId) (w : Nat) (l : Lanes) (d : Word) :
    IgnoresResult fun s => writeWord s m w l d := by
  intro s r
  cases l <;> rfl

theorem irqRaise_ignores (c : CoreId) (k : Source) : IgnoresResult (irqRaise c k) := fun _ _ => rfl

theorem updateBanked_ignores (i : Initiator) (f : IrqCtl → IrqCtl) : IgnoresResult (updateBanked i f) := by
  intro s r
  cases i <;> rfl

theorem dreqFieldWrite_ignores (f : Dreq → Dreq) : IgnoresResult (dreqFieldWrite f) :=
  .ite (fun _ _ => .rfl) .id fun _ _ => rfl

theorem loadEntry_ignores (c : CoreId) : IgnoresResult (loadEntry c) := by
  intro s r
  rw [loadEntry_eq, loadEntry_eq]
  rfl

theorem fbCommit_ignores : IgnoresResult fbCommit := .ite (fun _ _ => .rfl) (fun _ _ => rfl) .id

/-- No register write reads the last result. -/
theorem regWrite_ignores (i : Initiator) (r : Reg) (l : Lanes) (d : Word) : IgnoresResult (regWrite i r l d) := by
  cases r
  case irqstat | hcounter => exact .id
  case hperiod | mbox | pwmctl | pwmcyc => exact fun _ _ => rfl
  case irqen | irqack => exact .ite (fun _ _ => .rfl) (updateBanked_ignores _ _) .id
  case adapter =>
    refine .ite (fun _ _ => .rfl) (.ite (fun _ _ => .rfl) ?_ fun _ _ => rfl) .id
    exact (loadEntry_ignores .s).comp ((loadEntry_ignores .m).comp fun _ _ => rfl)
  case cmdreq =>
    refine .ite (fun _ _ => .rfl) (.ite (fun _ _ => .rfl) ((irqRaise_ignores _ _).comp ?_) ?_) .id <;>
    exact .ite (fun _ _ => .rfl) (irqRaise_ignores _ _) .id
  case pwml | pwmr => exact .ite (fun _ _ => .rfl) (fun _ _ => rfl) .id
  case dreqctl => exact .ite (fun _ _ => .rfl) (fun _ _ => rfl) .id
  case dreqsrch | dreqsrcl | dreqdsth | dreqdstl | dreqlen =>
    unfold regWrite
    exact dreqFieldWrite_ignores _
  case vdpmode | vdpshift | aflen => exact .ite (fun _ _ => .rfl) (fun _ _ => rfl) .id
  case afaddr | afdata => exact .ite (fun _ _ => .rfl) .id fun _ _ => rfl
  case fbctl => exact .ite (fun _ _ => .rfl) (fbCommit_ignores.comp fun _ _ => rfl) .id

theorem targetWrite_ignores (i : Initiator) (l : Lanes) (g : Target) (d : Word) :
    IgnoresResult (targetWrite i l g d) := by
  cases g
  case bootrom | reserved => exact .id
  case reg r => exact regWrite_ignores i r l d
  case palette | sdram => exact writeWord_ignores _ _ l d
  case vram idx => exact fun s => writeWord_ignores (backBank s) idx l d s
  case external => exact fun _ _ => rfl

theorem regRead_setResult (i : Initiator) (g : Reg) (s : State) (r : OpResult) :
    regRead i g (setResult s r) = regRead i g s := by
  cases g <;> rfl

theorem targetRead_setResult (i : Initiator) (l : Lanes) (g : Target) (s : State) (r : OpResult) :
    targetRead i l g (setResult s r) = ((targetRead i l g s).1, setResult (targetRead i l g s).2 r) := by
  cases g
  case reg g => exact Prod.ext (regRead_setResult i g s r) rfl
  all_goals rfl

theorem waitOf_setResult (i : Initiator) (g : Target) (s : State) (r : OpResult) :
    waitOf i g (setResult s r) = waitOf i g s := by
  cases g <;> rfl

theorem busRead_setResult (i : Initiator) (l : Lanes) (a : Long) (s : State) (r : OpResult) :
    busRead i l a (setResult s r) =
      ((busRead i l a s).1, (busRead i l a s).2.1, setResult (busRead i l a s).2.2 r) := by
  unfold busRead readAt
  rw [targetRead_setResult, waitOf_setResult]

theorem busWrite_setResult (i : Initiator) (l : Lanes) (a : Long) (d : Word) (s : State) (r : OpResult) :
    busWrite i l a d (setResult s r) = ((busWrite i l a d s).1, setResult (busWrite i l a d s).2 r) := by
  unfold busWrite writeAt
  rw [targetWrite_ignores, waitOf_setResult]

/-! ### A transaction performed by itself -/

theorem exec_readOn_busRead {i : Initiator} {s : State} (hm : MayIssue i s) (l : Lanes) (a : Long) :
    exec (readOn l i a) s =
      .next (setResult (busRead i l a s).2.2 (.bus (busRead i l a s).1 (busRead i l a s).2.1)) := by
  rw [exec_readOn, transactRead_eq i l _ s hm]
  rfl

theorem exec_writeOn_busWrite {i : Initiator} {s : State} (hm : MayIssue i s) (l : Lanes) (a : Long) (d : Word) :
    exec (writeOn l i a d) s = .next (setResult (busWrite i l a d s).2 (.bus 0 (busWrite i l a d s).1)) := by
  rw [exec_writeOn, transactWrite_eq i l _ d s hm]
  rfl

/-- A transaction leaves its initiator free to issue the next. -/
theorem mayIssue_after {i : Initiator} {s t : State} (hm : MayIssue i s) (k : BusKeeps s t) (r : OpResult) :
    MayIssue i (setResult t r) := by
  intro hi
  obtain ⟨htoken, hpend⟩ := hm hi
  exact ⟨k.token.trans htoken, (congrArg PerAgent.h k.pend).trans hpend⟩

/-- The state a transaction leaves, with the result taken back that it recorded. -/
theorem setResult_setResult_back {s t : State} (k : BusKeeps s t) (r : OpResult) :
    setResult (setResult t r) s.result = t := by
  rw [← k.result]
  rfl

/-! ### A long access is two transactions -/

/-- `MemRead` of a long, as two word reads performed one after the other. -/
theorem memRead_long_transactions {i : Initiator} {s : State} (hm : MayIssue i s) (a : Long) :
    ∃ hi w1 s1 lo w2 s2, exec (.rd16 i (evenAddr a)) s = .next s1 ∧ s1.result = .bus hi w1 ∧
      exec (.rd16 i (evenAddr a + 2)) s1 = .next s2 ∧ s2.result = .bus lo w2 ∧
      memRead i a .long s = (joinWords hi lo, w1 + w2, setResult s2 s.result) := by
  have first := exec_readOn_busRead hm .word (evenAddr a)
  have keeps1 := busRead_keeps i .word (evenAddr a) s
  rcases h1 : busRead i .word (evenAddr a) s with ⟨hi, w1, u1⟩
  rw [h1] at first keeps1
  have second := exec_readOn_busRead (mayIssue_after hm keeps1 (.bus hi w1)) .word (evenAddr a + 2)
  have keeps2 := busRead_keeps i .word (evenAddr a + 2) u1
  rw [busRead_setResult] at second
  rcases h2 : busRead i .word (evenAddr a + 2) u1 with ⟨lo, w2, u2⟩
  rw [h2] at second keeps2
  refine ⟨hi, w1, _, lo, w2, _, first, rfl, second, rfl, ?_⟩
  have both : memRead i a .long s = (joinWords hi lo, w1 + w2, u2) := by
    unfold memRead
    dsimp only
    rw [h1]
    dsimp only
    rw [h2]
  rw [both]
  exact Prod.ext rfl (Prod.ext rfl (setResult_setResult_back (keeps1.trans keeps2) (.bus lo w2)).symm)

/-- `MemWrite` of a long, as two word writes performed one after the other. -/
theorem memWrite_long_transactions {i : Initiator} {s : State} (hm : MayIssue i s) (a v : Long) :
    ∃ w1 s1 w2 s2, exec (.wr16 i (evenAddr a) (hiWord v)) s = .next s1 ∧ s1.result = .bus 0 w1 ∧
      exec (.wr16 i (evenAddr a + 2) (loWord v)) s1 = .next s2 ∧ s2.result = .bus 0 w2 ∧
      memWrite i a .long v s = (w1 + w2, setResult s2 s.result) := by
  have first := exec_writeOn_busWrite hm .word (evenAddr a) (hiWord v)
  have keeps1 := busWrite_keeps i .word (evenAddr a) (hiWord v) s
  rcases h1 : busWrite i .word (evenAddr a) (hiWord v) s with ⟨w1, u1⟩
  rw [h1] at first keeps1
  have second := exec_writeOn_busWrite (mayIssue_after hm keeps1 (.bus 0 w1)) .word (evenAddr a + 2) (loWord v)
  have keeps2 := busWrite_keeps i .word (evenAddr a + 2) (loWord v) u1
  rw [busWrite_setResult] at second
  rcases h2 : busWrite i .word (evenAddr a + 2) (loWord v) u1 with ⟨w2, u2⟩
  rw [h2] at second keeps2
  refine ⟨w1, _, w2, _, first, rfl, second, rfl, ?_⟩
  have both : memWrite i a .long v s = (w1 + w2, u2) := by
    unfold memWrite
    dsimp only
    rw [h1]
    dsimp only
    rw [h2]
  rw [both]
  exact Prod.ext rfl (setResult_setResult_back (keeps1.trans keeps2) (.bus 0 w2)).symm

end Sys2Proof.MemoryProofs
end

section
/-! Long accesses, in SDRAM also byte by byte (20_memory.md R90, R93; 41_bus.md R196). -/

namespace Sys2Proof.MemoryProofs
open Sys2Proof.Machine Sys2Proof.Laws Sys2Proof.StateProofs

/- Elaborate these proofs one after the other. All at once, while the kernel still checks the text above, they can need
more threads than the check's limit on memory has room for. -/
set_option deprecated.oldSectionVars true

/-! ### The parts of a long -/

/-- A field of a long, as a shift and a mask. -/
theorem field_eq_shift_mask (v : Long) (n len : Nat) :
    (v.extractLsb' n len).setWidth 32 = (v >>> n) &&& BitVec.ofNat 32 (2 ^ len - 1) := by
  refine BitVec.eq_of_getLsbD_eq fun k hk => ?_
  rw [BitVec.getLsbD_setWidth, BitVec.getLsbD_extractLsb', BitVec.getLsbD_and, BitVec.getLsbD_ushiftRight,
    BitVec.getLsbD_ofNat, Nat.testBit_two_pow_sub_one]
  simp [hk, Bool.and_comm]

theorem byte_of_field (v : Long) (n : Nat) {k : Nat} (h : k + 8 ≤ 16) :
    (v.extractLsb' n 16).extractLsb' k 8 = v.extractLsb' (n + k) 8 := by
  refine BitVec.eq_of_getLsbD_eq fun b hb => ?_
  have inside : k + b < 16 := by omega
  simp [hb, inside, Nat.add_assoc]

theorem loByte_loWord (v : Long) : (loByte (loWord v)).setWidth 32 = v &&& 0xFF :=
  (congrArg _ (byte_of_field v 0 (k := 0) (by omega))).trans ((field_eq_shift_mask v 0 8).trans (by simp))

theorem hiByte_loWord (v : Long) : (hiByte (loWord v)).setWidth 32 = (v >>> 8) &&& 0xFF :=
  (congrArg _ (byte_of_field v 0 (k := 8) (by omega))).trans (field_eq_shift_mask v 8 8)

theorem loByte_hiWord (v : Long) : (loByte (hiWord v)).setWidth 32 = (v >>> 16) &&& 0xFF :=
  (congrArg _ (byte_of_field v 16 (k := 0) (by omega))).trans (field_eq_shift_mask v 16 8)

theorem hiByte_hiWord (v : Long) : (hiByte (hiWord v)).setWidth 32 = (v >>> 24) &&& 0xFF :=
  (congrArg _ (byte_of_field v 16 (k := 8) (by omega))).trans (field_eq_shift_mask v 24 8)

/-- The most significant byte needs no mask. -/
theorem shiftRight_24_mask (v : Long) : (v >>> 24) &&& 0xFF = v >>> 24 := by
  have top : v.toNat >>> 24 < 2 ^ 8 := by
    have hv := v.isLt
    rw [Nat.shiftRight_eq_div_pow]
    omega
  refine BitVec.eq_of_toNat_eq ?_
  rw [BitVec.toNat_and, BitVec.toNat_ushiftRight]
  exact (Nat.and_two_pow_sub_one_eq_mod _ 8).trans (Nat.mod_eq_of_lt top)

theorem loWord_setWidth (v : Long) : (loWord v).setWidth 32 = v &&& 0xFFFF :=
  (field_eq_shift_mask v 0 16).trans (by simp)

/-! ### Accesses in SDRAM -/

/-- The index of the word an address of SDRAM names (20_memory.md R84). -/
def sdramIndex (a : Long) : Nat := (a.toNat - 0x60000) / 2

theorem busRead_sdram (i : Initiator) (l : Lanes) {a : Long} (h0 : 0x60000 ≤ a.toNat) (h1 : a.toNat < 0xA0000)
    (s : State) : busRead i l a s =
      (l.mask (readWord s .sdram (sdramIndex a)), waitOf i (.sdram (sdramIndex a)) s, s) := by
  rw [busRead, targetOf_sdramAt i h0 h1]
  rfl

theorem busWrite_sdram (i : Initiator) (l : Lanes) {a : Long} (h0 : 0x60000 ≤ a.toNat) (h1 : a.toNat < 0xA0000)
    (d : Word) (s : State) : (busWrite i l a d s).2 = writeWord s .sdram (sdramIndex a) l d := by
  rw [busWrite, targetOf_sdramAt i h0 h1]
  rfl

/-- The two words of a long in SDRAM lie one after the other, both in SDRAM. -/
theorem sdram_long_words {a : Long} (h0 : 0x60000 ≤ a.toNat) (h1 : a.toNat < 0x9FFFE) :
    (0x60000 ≤ (evenAddr a).toNat ∧ (evenAddr a).toNat < 0xA0000 ∧ sdramIndex (evenAddr a) = sdramIndex a) ∧
    (0x60000 ≤ (evenAddr a + 2).toNat ∧ (evenAddr a + 2).toNat < 0xA0000 ∧
      sdramIndex (evenAddr a + 2) = sdramIndex a + 1) := by
  have first := evenAddr_toNat a
  have second : (evenAddr a + 2).toNat = 2 * (a.toNat / 2) + 2 := by
    have two : (2 : Long).toNat = 2 := rfl
    rw [BitVec.toNat_add, first, two]
    exact Nat.mod_eq_of_lt (by omega)
  unfold sdramIndex
  rw [first, second]
  omega

theorem memRead_long_sdram (i : Initiator) {a : Long} (h0 : 0x60000 ≤ a.toNat) (h1 : a.toNat < 0x9FFFE) (s : State) :
    (memRead i a .long s).1 = joinWords (readWord s .sdram (sdramIndex a)) (readWord s .sdram (sdramIndex a + 1)) ∧
    (memRead i a .long s).2.2 = s := by
  obtain ⟨⟨e0, e1, hfirst⟩, ⟨o0, o1, hsecond⟩⟩ := sdram_long_words h0 h1
  unfold memRead
  dsimp only
  rw [busRead_sdram i .word e0 e1]
  dsimp only
  rw [busRead_sdram i .word o0 o1, hfirst, hsecond, mask_word, mask_word]
  exact ⟨rfl, rfl⟩

/-- A long stored in SDRAM from a word on, its upper half first. -/
def storeLong (s : State) (w : Nat) (v : Long) : State :=
  writeWord (writeWord s .sdram w .word (hiWord v)) .sdram (w + 1) .word (loWord v)

theorem memWrite_long_sdram (i : Initiator) {a : Long} (h0 : 0x60000 ≤ a.toNat) (h1 : a.toNat < 0x9FFFE) (v : Long)
    (s : State) : (memWrite i a .long v s).2 = storeLong s (sdramIndex a) v := by
  obtain ⟨⟨e0, e1, hfirst⟩, ⟨o0, o1, hsecond⟩⟩ := sdram_long_words h0 h1
  show (busWrite i .word (evenAddr a + 2) (loWord v) (busWrite i .word (evenAddr a) (hiWord v) s).2).2 = _
  rw [busWrite_sdram i .word e0 e1, busWrite_sdram i .word o0 o1, hfirst, hsecond]
  rfl

theorem storeLong_eq (s : State) (w : Nat) (v : Long) : storeLong s w v = { s with mem := (storeLong s w v).mem } := by
  unfold storeLong
  rw [writeWord_eq, writeWord_eq]

theorem readWord_storeLong_upper (s : State) (w : Nat) (v : Long) :
    readWord (storeLong s w v) .sdram w = hiWord v := by
  unfold storeLong
  rw [readWord_writeWord_other _ _ _ _ _ _ (Nat.ne_of_lt (Nat.lt_succ_self w)), readWord_writeWord_same,
    merge_eq_masks]

theorem readWord_storeLong_lower (s : State) (w : Nat) (v : Long) :
    readWord (storeLong s w v) .sdram (w + 1) = loWord v := by
  unfold storeLong
  rw [readWord_writeWord_same, merge_eq_masks]

theorem readByte_storeLong_other (s : State) (w : Nat) (v : Long) {x : Nat}
    (h : ∀ k < 4, x ≠ MemId.sdram.loc (2 * w + k)) : readByte (storeLong s w v) x = readByte s x := by
  unfold storeLong
  rw [readByte_writeWord_other _ _ _ _ _ _ (h 2 (by omega)) (h 3 (by omega)),
    readByte_writeWord_other _ _ _ _ _ _ (h 0 (by omega)) (h 1 (by omega))]

/-- A byte access reads the byte of the word that the parity of its address names (20_memory.md R90). -/
theorem memRead_byte_sdram (i : Initiator) {a : Long} (h0 : 0x60000 ≤ a.toNat) (h1 : a.toNat < 0xA0000) (s : State) :
    (memRead i a .byte s).1 = (if a.toNat % 2 = 1 then loByte (readWord s .sdram (sdramIndex a))
      else hiByte (readWord s .sdram (sdramIndex a))).setWidth 32 := by
  have parity : a.getLsbD 0 = decide (a.toNat % 2 = 1) := Nat.testBit_zero a.toNat
  unfold memRead
  dsimp only
  rw [parity, busRead_sdram i .lower h0 h1, busRead_sdram i .upper h0 h1]
  by_cases h : a.toNat % 2 = 1
  · simp [h, Lanes.mask, Lanes.l]
  · simp [h, Lanes.mask, Lanes.u]

theorem memRead_word_sdram (i : Initiator) {a : Long} (h0 : 0x60000 ≤ a.toNat) (h1 : a.toNat < 0xA0000) (s : State) :
    (memRead i a .word s).1 = (readWord s .sdram (sdramIndex a)).setWidth 32 := by
  unfold memRead
  dsimp only
  rw [busRead_sdram i .word h0 h1, mask_word]

section
variable {a : Long} (h0 : 0x60000 ≤ a.toNat) (h1 : a.toNat < 0x9FFFE) (heven : a.toNat % 2 = 0)
include h0 h1 heven

/-- The four bytes of a long at an even address of SDRAM lie in its two words. -/
theorem sdram_long_bytes {k : Nat} (hk : k < 4) : (a + BitVec.ofNat 32 k).toNat = a.toNat + k ∧
    sdramIndex (a + BitVec.ofNat 32 k) = sdramIndex a + k / 2 := by
  have address : (a + BitVec.ofNat 32 k).toNat = a.toNat + k := by
    rw [BitVec.toNat_add, BitVec.toNat_ofNat, Nat.mod_eq_of_lt (a := k) (by omega)]
    exact Nat.mod_eq_of_lt (by omega)
  refine ⟨address, ?_⟩
  unfold sdramIndex
  rw [address]
  omega

/-- A long stored in SDRAM reads back whole, at either byte address of its first word. -/
theorem memRead_long_storeLong (i : Initiator) (v : Long) (s : State) {k : Nat} (hk : k < 2) :
    (memRead i (a + BitVec.ofNat 32 k) .long (storeLong s (sdramIndex a) v)).1 = v := by
  obtain ⟨address, index⟩ := sdram_long_bytes h0 h1 heven (k := k) (by omega)
  have word : sdramIndex a + k / 2 = sdramIndex a := by omega
  rw [(memRead_long_sdram i (by omega) (by omega) _).1, index, word, readWord_storeLong_upper, readWord_storeLong_lower,
    joinWords_hi_lo]

/-- And byte by byte, the most significant byte at the lowest address. -/
theorem memRead_byte_storeLong (i : Initiator) (v : Long) (s : State) {k : Nat} (hk : k < 4) :
    (memRead i (a + BitVec.ofNat 32 k) .byte (storeLong s (sdramIndex a) v)).1 = (v >>> (24 - 8 * k)) &&& 0xFF := by
  obtain ⟨address, index⟩ := sdram_long_bytes h0 h1 heven hk
  rw [memRead_byte_sdram i (by omega) (by omega), address, index]
  have upper (h : k < 2) : sdramIndex a + k / 2 = sdramIndex a := by omega
  have lower (h : 2 ≤ k) : sdramIndex a + k / 2 = sdramIndex a + 1 := by omega
  obtain rfl | rfl | rfl | rfl : k = 0 ∨ k = 1 ∨ k = 2 ∨ k = 3 := by omega
  · rw [if_neg (by omega), upper (by omega), readWord_storeLong_upper, hiByte_hiWord]
  · rw [if_pos (by omega), upper (by omega), readWord_storeLong_upper, loByte_hiWord]
  · rw [if_neg (by omega), lower (by omega), readWord_storeLong_lower, hiByte_loWord]
  · rw [if_pos (by omega), lower (by omega), readWord_storeLong_lower, loByte_loWord, BitVec.ushiftRight_zero]

/-- Its second word reads back by itself. -/
theorem memRead_word_storeLong (i : Initiator) (v : Long) (s : State) :
    (memRead i (a + 2) .word (storeLong s (sdramIndex a) v)).1 = v &&& 0xFFFF := by
  obtain ⟨address, index⟩ := sdram_long_bytes h0 h1 heven (k := 2) (by omega)
  have read := memRead_word_sdram i (a := a + BitVec.ofNat 32 2) (by omega) (by omega) (storeLong s (sdramIndex a) v)
  rw [index, readWord_storeLong_lower, loWord_setWidth] at read
  exact read

end

theorem even_of_bit_zero {a : Long} (h : a.getLsbD 0 = false) : a.toNat % 2 = 0 := by
  have odd : decide (a.toNat % 2 = 1) = false := (Nat.testBit_zero a.toNat).symm.trans h
  have notOdd := of_decide_eq_false odd
  omega

/-- Settles O17. -/
theorem longAccessIsTwoWordAccesses : Obligations.LongAccessIsTwoWordAccesses := by
  refine ⟨fun i a v s hm => ⟨memRead_long_transactions hm a, memWrite_long_transactions hm a v⟩,
    fun i a v s h0 h1 hbit => ?_⟩
  have heven := even_of_bit_zero hbit
  have first : 2 * sdramIndex a = a.toNat - 0x60000 := by
    unfold sdramIndex
    omega
  rw [memWrite_long_sdram i h0 h1]
  refine ⟨storeLong_eq s _ v, ?_, memRead_long_storeLong h0 h1 heven i v s (k := 1) (by omega), ?_,
    memRead_byte_storeLong h0 h1 heven i v s (k := 1) (by omega),
    memRead_byte_storeLong h0 h1 heven i v s (k := 2) (by omega), ?_,
    memRead_word_storeLong h0 h1 heven i v s, (memRead_long_sdram i h0 h1 _).2,
    fun x hx => readByte_storeLong_other s _ v fun k hk => first ▸ hx k hk⟩
  · have whole := memRead_long_storeLong h0 h1 heven i v s (k := 0) (by omega)
    rwa [show a + BitVec.ofNat 32 0 = a from BitVec.add_zero a] at whole
  · have top := memRead_byte_storeLong h0 h1 heven i v s (k := 0) (by omega)
    rw [show a + BitVec.ofNat 32 0 = a from BitVec.add_zero a] at top
    exact top.trans (shiftRight_24_mask v)
  · have low := memRead_byte_storeLong h0 h1 heven i v s (k := 3) (by omega)
    exact low.trans (by simp)

end Sys2Proof.MemoryProofs
end

section
/-! The calls of a core's instruction: each is a bus transaction of the core, and its wait is added to the cycles of the
instruction (40_scheduler.md R150; 20_memory.md R97). -/

namespace Sys2Proof.MemoryProofs
open Sys2Proof.Machine Sys2Proof.Laws Sys2Proof.StateProofs

/- Elaborate these proofs one after the other. All at once, while the kernel still checks the text above, they can need
more threads than the check's limit on memory has room for. -/
set_option deprecated.oldSectionVars true

/-! ### The calls of an instruction -/

theorem runProgram_read (c : CoreId) (a : Long) (n : Size) (k : Long → Nat → CoreProgram) (w : Nat) (s : State) :
    runProgram c (.read a n k) w s = runProgram c (k (memRead c.init a n s).1 (memRead c.init a n s).2.1)
      (w + (memRead c.init a n s).2.1) (memRead c.init a n s).2.2 := rfl

theorem runProgram_write (c : CoreId) (a : Long) (n : Size) (v : Long) (k : Nat → CoreProgram) (w : Nat) (s : State) :
    runProgram c (.write a n v k) w s = runProgram c (k (memWrite c.init a n v s).1)
      (w + (memWrite c.init a n v s).1) (memWrite c.init a n v s).2 := rfl

/-- A core's read as an operation of its own, which records its answer and nothing else. -/
theorem exec_core_read (c : CoreId) (l : Lanes) (a : Long) (s : State) : ∃ u, exec (readOn l c.init a) s = .next u ∧
    u.result = .bus (busRead c.init l a s).1 (busRead c.init l a s).2.1 ∧
    setResult u s.result = (busRead c.init l a s).2.2 :=
  ⟨_, exec_readOn_busRead (mayIssue_core c s) l a, rfl, setResult_setResult_back (busRead_keeps c.init l a s) _⟩

theorem exec_core_write (c : CoreId) (l : Lanes) (a : Long) (d : Word) (s : State) :
    ∃ u, exec (writeOn l c.init a d) s = .next u ∧ u.result = .bus 0 (busWrite c.init l a d s).1 ∧
      setResult u s.result = (busWrite c.init l a d s).2 :=
  ⟨_, exec_writeOn_busWrite (mayIssue_core c s) l a d, rfl, setResult_setResult_back (busWrite_keeps c.init l a d s) _⟩

theorem hiByte_setWidth (x : Word) : (hiByte x).setWidth 32 = (x >>> 8).setWidth 32 := by
  have hx := x.isLt
  refine BitVec.eq_of_toNat_eq ?_
  rw [hiByte, BitVec.toNat_setWidth, BitVec.toNat_setWidth, BitVec.extractLsb'_toNat, BitVec.toNat_ushiftRight,
    Nat.shiftRight_eq_div_pow]
  omega

/-- A word whose upper byte is 0 is its lower byte. -/
theorem loByte_setWidth_mask (x : Word) :
    (loByte (Lanes.mask .lower x)).setWidth 32 = (Lanes.mask .lower x).setWidth 32 := by
  have lower : Lanes.mask .lower x = (0 : Byte) ++ loByte x := rfl
  have value : (Lanes.mask .lower x).toNat = (loByte x).toNat := by
    rw [lower, toNat_append_eq]
    simp
  have byte : loByte (Lanes.mask .lower x) = loByte x := loByte_joinBytes 0 _
  refine BitVec.eq_of_toNat_eq ?_
  rw [byte, BitVec.toNat_setWidth, BitVec.toNat_setWidth, value]

/-- A byte read is the word on the byte's lane, brought down to bits 7:0 (41_bus.md R196). -/
theorem memRead_byte_odd (i : Initiator) {a : Long} (h : a.getLsbD 0 = true) (s : State) : memRead i a .byte s =
    ((busRead i .lower a s).1.setWidth 32, (busRead i .lower a s).2.1, (busRead i .lower a s).2.2) := by
  unfold memRead
  dsimp only
  rw [if_pos h]
  exact Prod.ext (loByte_setWidth_mask _) rfl

theorem memRead_byte_even (i : Initiator) {a : Long} (h : ¬ a.getLsbD 0 = true) (s : State) : memRead i a .byte s =
    (((busRead i .upper a s).1 >>> 8).setWidth 32, (busRead i .upper a s).2.1, (busRead i .upper a s).2.2) := by
  unfold memRead
  dsimp only
  rw [if_neg h]
  exact Prod.ext (hiByte_setWidth _) rfl

/-- A byte write drives its byte on both lanes and selects the one of its address (41_bus.md R196). -/
theorem memWrite_byte (i : Initiator) (a v : Long) (s : State) : memWrite i a .byte v s =
    busWrite i (if a.getLsbD 0 then .lower else .upper) a (v.extractLsb' 0 8 ++ v.extractLsb' 0 8) s := by
  have byte : loByte (loWord v) = v.extractLsb' 0 8 := byte_of_field v 0 (k := 0) (by omega)
  rw [← byte]
  rfl

/-- Settles O48: one case for each width of a read and of a write. -/
theorem engineCallsAreBusTransactions : Obligations.EngineCallsAreBusTransactions := by
  intro c a v w s
  refine ⟨fun r extra => rfl, fun k => ?word_read, fun k => ?byte_read, fun k => ?word_write, fun k => ?byte_write,
    fun k => ?long_read, fun k => ?long_write⟩
  case word_read =>
    obtain ⟨u, performed, answer, left⟩ := exec_core_read c .word a s
    exact ⟨_, _, u, performed, answer, congrArg (runProgram c _ _) left.symm⟩
  case byte_read =>
    by_cases odd : a.getLsbD 0 = true
    · obtain ⟨u, performed, answer, left⟩ := exec_core_read c .lower a s
      simp only [runProgram_read, memRead_byte_odd _ odd, if_pos odd]
      exact ⟨_, _, u, performed, answer, congrArg (runProgram c _ _) left.symm⟩
    · obtain ⟨u, performed, answer, left⟩ := exec_core_read c .upper a s
      simp only [runProgram_read, memRead_byte_even _ odd, if_neg odd]
      exact ⟨_, _, u, performed, answer, congrArg (runProgram c _ _) left.symm⟩
  case word_write =>
    obtain ⟨u, performed, answer, left⟩ := exec_core_write c .word a (loWord v) s
    exact ⟨_, u, performed, answer, congrArg (runProgram c _ _) left.symm⟩
  case byte_write =>
    rw [runProgram_write, memWrite_byte]
    by_cases odd : a.getLsbD 0 = true
    · obtain ⟨u, performed, answer, left⟩ := exec_core_write c .lower a (v.extractLsb' 0 8 ++ v.extractLsb' 0 8) s
      rw [if_pos odd, if_pos odd]
      exact ⟨_, u, performed, answer, congrArg (runProgram c _ _) left.symm⟩
    · obtain ⟨u, performed, answer, left⟩ := exec_core_write c .upper a (v.extractLsb' 0 8 ++ v.extractLsb' 0 8) s
      rw [if_neg odd, if_neg odd]
      exact ⟨_, u, performed, answer, congrArg (runProgram c _ _) left.symm⟩
  case long_read =>
    obtain ⟨hi, n1, u1, lo, n2, u2, first, answer1, second, answer2, both⟩ :=
      memRead_long_transactions (mayIssue_core c s) a
    refine ⟨hi, n1, u1, lo, n2, u2, first, answer1, second, answer2, ?_⟩
    rw [runProgram_read, both]
    rfl
  case long_write =>
    obtain ⟨n1, u1, n2, u2, first, answer1, second, answer2, both⟩ :=
      memWrite_long_transactions (mayIssue_core c s) a v
    refine ⟨n1, u1, n2, u2, first, answer1, second, answer2, ?_⟩
    rw [runProgram_write, both]
    rfl

end Sys2Proof.MemoryProofs
end

section
/-! The normal `CORE_STEP`: the interrupt, the instruction, the accounting (40_scheduler.md R152, R155, R156), and the
load of both cores at the edge of `adapterReset` (46_io_mailbox.md R341). -/

namespace Sys2Proof.MemoryProofs
open Sys2Proof.Machine Sys2Proof.Laws Sys2Proof.StateProofs

/- Elaborate these proofs one after the other. All at once, while the kernel still checks the text above, they can need
more threads than the check's limit on memory has room for. -/
set_option deprecated.oldSectionVars true

/-! ### The interrupt part -/

/-- The vector lies in the core's boot ROM, where no access waits (42_interrupt.md R227). -/
theorem irqDispatch_wait (c : CoreId) (k : Source) (s : State) : (irqDispatch c k s).1 = 0 := by
  have inRom : (evenAddr (BitVec.ofNat 32 (Config.vecBase + 4 * Config.vec k))).toNat < 0x4000 ∧
      (evenAddr (BitVec.ofNat 32 (Config.vecBase + 4 * Config.vec k)) + 2).toNat < 0x4000 := by
    cases k <;> decide
  unfold irqDispatch memRead
  dsimp only
  rw [busRead_boot c inRom.1]
  dsimp only
  rw [busRead_boot c inRom.2, Nat.zero_add]

theorem takeInterrupt_eq (c : CoreId) (s : State) : takeInterrupt c s = (0, match irqQuery c s with
    | some k => if Config.engineAccepts (s.cores.get c).regs (Config.irqLevel k) then (irqDispatch c k s).2 else s
    | none => s) := by
  unfold takeInterrupt
  cases irqQuery c s with
  | none => rfl
  | some k =>
    dsimp only
    by_cases h : Config.engineAccepts (s.cores.get c).regs (Config.irqLevel k) = true
    · rw [if_pos h, if_pos h]
      exact Prod.ext (irqDispatch_wait c k s) rfl
    · rw [if_neg h, if_neg h]

/-! ### The accounting -/

theorem sh2Due_addDeficits (k : CoreState) (n : Nat) : sh2Due (addDeficits k n) =
    decide (k.minCyclesBetweenSh2Syncs.toNat ≤ min (k.cyclesUntilSh2Sync.toNat + n) 0xFFFFFFFF) := by
  rw [← satAdd_toNat]
  rfl

theorem m68kDue_addDeficits (k : CoreState) (n : Nat) : m68kDue (addDeficits k n) =
    decide (k.minCyclesBetweenM68kSyncs.toNat ≤ min (k.cyclesUntilM68kSync.toNat + n) 0xFFFFFFFF) := by
  rw [← satAdd_toNat]
  rfl

/-- `Advance` (40_scheduler.md R155). -/
theorem advanceCore_eq (c : CoreId) (n : Nat) (u : State) : advanceCore c n u = { u with
    clk := u.clk.set c.agent (u.clk.get c.agent + BitVec.ofNat 64 n)
    cores := u.cores.set c (addDeficits (u.cores.get c) n) } := by
  unfold advanceCore tick Config.scale
  rw [Nat.mul_one]
  rfl

/-- `Advance` and `SyncCheck` are the accounting of a step (40_scheduler.md R155, R156). -/
theorem accounts_syncCheck (c : CoreId) (n : Nat) (u : State) :
    Accounts c n u (setResult (syncCheck c (advanceCore c n u)) .none) := by
  rw [advanceCore_eq]
  unfold Accounts syncCheck
  dsimp only
  rw [PerCore.get_set_same, sh2Due_addDeficits, m68kDue_addDeficits]
  simp only [decide_eq_true_eq, setCore, PerCore.set_set]
  rfl

/-! ### The load of both cores -/

/-- Both cores hold the registers loaded from their boot images (46_io_mailbox.md R341). -/
def AtEntry (s : State) : Prop := ∀ x, (s.cores.get x).regs = entryRegs x

/-- From `s` to `t` the boot ROMs stay what they are, and either both cores were loaded, or none was given registers and
`adapterReset` did not rise. -/
def KeepsOrLoads (s t : State) : Prop := BootUnlisted t.mem ∧
  (AtEntry t ∨ ((∀ x, (t.cores.get x).regs = (s.cores.get x).regs) ∧
    (t.io.adapterReset = true → s.io.adapterReset = true)))

theorem KeepsOrLoads.trans {s u t : State} (h : KeepsOrLoads s u) (h' : KeepsOrLoads u t) : KeepsOrLoads s t := by
  obtain ⟨-, first⟩ := h
  obtain ⟨rom, loaded | ⟨regs', low'⟩⟩ := h'
  · exact ⟨rom, .inl loaded⟩
  · refine ⟨rom, ?_⟩
    rcases first with loaded | ⟨regs, low⟩
    · exact .inl fun x => (regs' x).trans (loaded x)
    · exact .inr ⟨fun x => (regs' x).trans (regs x), fun ht => low (low' ht)⟩

theorem KeepsOrLoads.atEntry {s t : State} (h : KeepsOrLoads s t) (hs : AtEntry s) : AtEntry t := by
  obtain ⟨-, loaded | ⟨regs, -⟩⟩ := h
  · exact loaded
  · exact fun x => (regs x).trans (hs x)

/-- The edge of `adapterReset` loads both cores. -/
theorem KeepsOrLoads.atEntry_of_edge {s t : State} (h : KeepsOrLoads s t) (hs : s.io.adapterReset = false)
    (ht : t.io.adapterReset = true) : AtEntry t := by
  obtain ⟨-, loaded | ⟨-, low⟩⟩ := h
  · exact loaded
  · exact nomatch hs.symm.trans (low ht)

theorem bootUnlisted_writeByte {s : State} (h : BootUnlisted s.mem) {a : Nat} (ha : 0x8000 ≤ a) (b : Byte) :
    BootUnlisted (writeByte s a b).mem := by
  intro e he
  rcases mem_write _ _ _ _ _ he with ⟨rfl, -⟩ | listed
  · exact ha
  · exact h e listed

theorem bootUnlisted_writeWord {s : State} (h : BootUnlisted s.mem) {m : MemId} (hm : 0x8000 ≤ m.base) (w : Nat)
    (l : Lanes) (d : Word) : BootUnlisted (writeWord s m w l d).mem := by
  have above (k : Nat) : 0x8000 ≤ m.loc k := Nat.le_add_right_of_le hm
  cases l
  · exact bootUnlisted_writeByte (bootUnlisted_writeByte h (above _) _) (above _) _
  · exact bootUnlisted_writeByte h (above _) _
  · exact bootUnlisted_writeByte h (above _) _

section
variable {s t : State} (hrom : BootUnlisted s.mem)
include hrom

theorem KeepsOrLoads.of_same (hmem : t.mem = s.mem) (hreset : t.io.adapterReset = s.io.adapterReset)
    (hregs : ∀ x, (t.cores.get x).regs = (s.cores.get x).regs) : KeepsOrLoads s t :=
  ⟨hmem ▸ hrom, .inr ⟨hregs, fun ht => hreset.symm.trans ht⟩⟩

theorem KeepsOrLoads.refl : KeepsOrLoads s s := .of_same hrom rfl rfl fun _ => rfl

theorem setIrq_keepsOrLoads (c : CoreId) (q : IrqCtl) : KeepsOrLoads s (setIrq s c q) :=
  .of_same hrom rfl rfl fun x => by cases c <;> cases x <;> rfl

theorem updateBanked_keepsOrLoads (i : Initiator) (f : IrqCtl → IrqCtl) : KeepsOrLoads s (updateBanked i f s) := by
  unfold updateBanked
  split
  · exact setIrq_keepsOrLoads hrom _ _
  · exact .refl hrom

theorem cmdreqWrite_keepsOrLoads (l : Lanes) (d : Word) : KeepsOrLoads s (cmdreqWrite l d s) := by
  have raise {u : State} (hu : KeepsOrLoads s u) (b : Bool) (c : CoreId) :
      KeepsOrLoads s (if b then irqRaise c .cmd u else u) := by
    cases b
    · exact hu
    · exact hu.trans (setIrq_keepsOrLoads hu.1 c _)
  exact iteInduction (motive := KeepsOrLoads s) (fun _ => raise (raise (.refl hrom) _ _) _ _) fun _ => .refl hrom

/-- A write of `ADAPTER` loads both cores where the bit rises (46_io_mailbox.md R341). -/
theorem adapterWrite_keepsOrLoads (l : Lanes) (d : Word) : KeepsOrLoads s (adapterWrite l d s) := by
  unfold adapterWrite
  split
  · dsimp only
    split
    · rw [loadBoth_boot]
      on_goal 2 => exact hrom
      exact ⟨hrom, .inl fun x => by cases x <;> rfl⟩
    · next hedge =>
      refine ⟨hrom, .inr ⟨fun _ => rfl, fun hd => ?_⟩⟩
      have hbit : d.getLsbD 1 = true := hd
      simpa [hbit] using hedge
  · exact .refl hrom

theorem regWrite_keepsOrLoads (i : Initiator) (r : Reg) (l : Lanes) (d : Word) :
    KeepsOrLoads s (regWrite i r l d s) := by
  have same {u : State} (hmem : u.mem = s.mem) (hio : u.io.adapterReset = s.io.adapterReset)
      (hcores : u.cores = s.cores) : KeepsOrLoads s u := .of_same hrom hmem hio fun x => by rw [hcores]
  have unchanged : KeepsOrLoads s s := .refl hrom
  cases r
  case irqstat | hcounter => exact unchanged
  case hperiod | mbox | pwmctl | pwmcyc => exact same rfl rfl rfl
  case irqen | irqack =>
    exact iteInduction (motive := KeepsOrLoads s) (fun _ => updateBanked_keepsOrLoads hrom i _) fun _ => unchanged
  case adapter => exact adapterWrite_keepsOrLoads hrom l d
  case cmdreq => exact cmdreqWrite_keepsOrLoads hrom l d
  case pwml | pwmr | dreqctl | vdpmode | vdpshift | aflen =>
    exact iteInduction (motive := KeepsOrLoads s) (fun _ => same rfl rfl rfl) fun _ => unchanged
  case dreqsrch | dreqsrcl | dreqdsth | dreqdstl | dreqlen | afaddr | afdata =>
    exact iteInduction (motive := KeepsOrLoads s) (fun _ => unchanged) fun _ => same rfl rfl rfl
  case fbctl =>
    refine iteInduction (motive := KeepsOrLoads s) (fun _ => ?_) fun _ => unchanged
    rw [selectFb_eq]
    exact same rfl rfl rfl

theorem writeWord_keepsOrLoads {m : MemId} (hm : 0x8000 ≤ m.base) (w : Nat) (l : Lanes) (d : Word) :
    KeepsOrLoads s (writeWord s m w l d) := by
  refine ⟨bootUnlisted_writeWord hrom hm w l d, ?_⟩
  rw [writeWord_eq]
  exact .inr ⟨fun _ => rfl, fun h => h⟩

theorem busWrite_keepsOrLoads (i : Initiator) (l : Lanes) (a : Long) (d : Word) :
    KeepsOrLoads s (busWrite i l a d s).2 := by
  show KeepsOrLoads s (targetWrite i l (targetOf i a) d s)
  cases targetOf i a
  case bootrom | reserved => exact .refl hrom
  case external => exact .of_same hrom rfl rfl fun _ => rfl
  case reg r => exact regWrite_keepsOrLoads hrom i r l d
  case palette | sdram => exact writeWord_keepsOrLoads hrom (by decide) _ l d
  case vram idx =>
    have bank := backBank_base s
    exact writeWord_keepsOrLoads hrom (by omega) idx l d

theorem memWrite_keepsOrLoads (i : Initiator) (a : Long) (n : Size) (v : Long) :
    KeepsOrLoads s (memWrite i a n v s).2 :=
  memWrite_preserves (P := KeepsOrLoads s) i (fun l a d _ hu => hu.trans (busWrite_keepsOrLoads hu.1 i l a d)) a n v
    (.refl hrom)

end

/-- Once both cores are loaded, the rest of the instruction leaves their registers. -/
theorem runProgram_atEntry (c : CoreId) (p : CoreProgram) (w : Nat) {s : State} (hrom : BootUnlisted s.mem)
    (hs : AtEntry s) : AtEntry (runProgram c p w s).2.2 := by
  have both := runProgram_preserves (P := fun u => BootUnlisted u.mem ∧ AtEntry u) c (fun _ _ hu => hu)
    (fun l a d u hu => ⟨(busWrite_keepsOrLoads hu.1 c.init l a d).1,
      (busWrite_keepsOrLoads hu.1 c.init l a d).atEntry hu.2⟩) p w ⟨hrom, hs⟩
  exact both.2

/-- An instruction that makes the edge of `adapterReset` ends with both cores at their reset vectors. -/
theorem runProgram_reloads (c : CoreId) (p : CoreProgram) (w : Nat) {s : State} (hrom : BootUnlisted s.mem)
    (h : reloadsDuring c p s = true) : AtEntry (runProgram c p w s).2.2 := by
  induction p generalizing w s with
  | done r extra => exact nomatch h
  | read a n k ih =>
    obtain ⟨e, he⟩ := memRead_changes c.init a n s
    have hrom1 : BootUnlisted (memRead c.init a n s).2.2.mem := by
      rw [he]
      exact hrom
    exact ih _ _ _ hrom1 h
  | write a n v k ih =>
    have written := memWrite_keepsOrLoads hrom c.init a n v
    rcases Bool.or_eq_true_iff.mp h with edge | later
    · obtain ⟨low, high⟩ := Bool.and_eq_true_iff.mp edge
      have loaded := written.atEntry_of_edge (by simpa using low) high
      exact runProgram_atEntry c (k (memWrite c.init a n v s).1) _ written.1 loaded
    · exact ih _ _ written.1 later

/-! ### The step -/

theorem coreBody_normal {s : State} (hreset : s.io.adapterReset = false) (hdreq : s.dreq.active = false) (c : CoreId) :
    coreBody c s = normalStep c s := by
  unfold coreBody
  rw [hreset, hdreq]
  rfl

theorem exec_coreStepOf_turn {c : CoreId} {s : State} (h : CoreTurn c s) :
    exec (coreStepOf c) s =
      .next (setResult (syncCheck c (advanceCore c (coreBody c s).1 (coreBody c s).2)) .none) := by
  rw [exec_coreStepOf, (coreEnabled_iff c s).mpr h]
  rfl

/-- The accounting leaves every core's registers. -/
theorem syncCheck_advanceCore_regs (c : CoreId) (n : Nat) (u : State) (x : CoreId) :
    ((syncCheck c (advanceCore c n u)).cores.get x).regs = (u.cores.get x).regs := by
  cases c <;> cases x <;> rfl

/-- Settles O47: the interrupt part waits for nothing, the accounting is `accounts_syncCheck`, and an edge of
`adapterReset` is followed through the calls of the instruction by `runProgram_reloads`. -/
theorem normalCoreStepRunsOneInstruction : Obligations.NormalCoreStepRunsOneInstruction := by
  intro c s hturn hreset hdreq s1 prog done
  have entered : takeInterrupt c s = (0, s1) := takeInterrupt_eq c s
  have body : coreBody c s = (done.2.1, endRegs c (reloadsDuring c prog s1) done.1 done.2.2) := by
    rw [coreBody_normal hreset hdreq, normalStep, entered]
  have kept : s1.io.adapterReset = false ∧ s1.mem = s.mem := by
    obtain ⟨e, r, changed⟩ : ∃ e r, s1 = setRegs { s with extLog := e } c r := by
      have changes := takeInterrupt_changes c s
      rwa [entered] at changes
    rw [changed]
    exact ⟨hreset, rfl⟩
  refine ⟨_, exec_coreStepOf_turn hturn, runProgram_cycles c prog 0 s1, ?_, fun high => ?_, fun reloads hinv x => ?_⟩
  · rw [body]
    exact accounts_syncCheck c done.2.1 _
  · by_contra noEdge
    exact nomatch high.symm.trans (runProgram_adapterReset c prog 0 s1 kept.1 (Bool.eq_false_iff.mpr noEdge))
  · have rom : BootUnlisted s1.mem := kept.2 ▸ bootUnlisted_of_memInv hinv
    have loaded := runProgram_reloads c prog 0 rom reloads x
    rw [entryRegs, bootLong_entry] at loaded
    rw [body, reloads, endRegs_reloaded]
    exact (syncCheck_advanceCore_regs c done.2.1 done.2.2 x).trans loaded

end Sys2Proof.MemoryProofs
end

section
/-! # The family of the encoding (spec/30_encoding.md)

The codes and the fields of a word: a word is put together again from the fields the decoder takes it apart into
(30_encoding.md R121 to R123). -/

namespace Sys2Proof.EncodingProofs
open Sys2Proof.Machine Sys2Proof.Laws Sys2Proof.StateProofs

/- Elaborate these proofs one after the other. All at once, while the kernel still checks the text above, they can need
more threads than the check's limit on memory has room for. -/
set_option deprecated.oldSectionVars true

/-! ### Codes -/

@[simp] theorem code_initOf (b : BitVec 2) : (initOf b).code = b := by revert b; decide
@[simp] theorem code_agentOf (b : BitVec 2) : (agentOf b).code = b := by revert b; decide
@[simp] theorem code_channelOf (b : BitVec 1) : (channelOf b).code = b := by revert b; decide
@[simp] theorem code_coreOf (b : BitVec 1) : (coreOf b).code = b := by revert b; decide
@[simp] theorem code_dirOf (b : BitVec 1) : (dirOf b).code = b := by revert b; decide
@[simp] theorem bit_flagOf (b : BitVec 1) : bit (flagOf b) = b := by revert b; decide

theorem lanesOf_eq_some {b : BitVec 2} {ln : Lanes} : lanesOf b = some ln ↔ b = ln.code := by
  revert b
  cases ln <;> decide

theorem lanesOf_eq_none {b : BitVec 2} : lanesOf b = none ↔ b = 0 := by revert b; decide

theorem sourceOf_eq_some {b : BitVec 3} {k : Source} : sourceOf b = some k ↔ b = k.code := by
  revert b
  cases k <;> decide

/-- Five numbers name a source (30_encoding.md R125). -/
theorem sourceOf_isSome (b : BitVec 3) : (sourceOf b).isSome = true ↔ b.toNat ≤ 4 := by revert b; decide

/-- The data of a read must be 0 (30_encoding.md R121). -/
theorem dataOk_dirOf (b : BitVec 1) (d : Word) : (dirOf b).dataOk d = true ↔ (b = 0 → d = 0) := by
  have cases_bit : b = 0 ∨ b = 1 := by revert b; decide
  rcases cases_bit with rfl | rfl
  · simp [dirOf, Dir.dataOk]
  · simp [dirOf, Dir.dataOk]

/-! ### Words from their fields -/

variable {w : OpWord} {arg : BitVec 32}

/-- A format B word from its fields. -/
theorem busWord_of_fields (hclass : w.extractLsb' 60 4 = 1) (hz : w.extractLsb' 48 7 = 0) :
    busWord (initOf (w.extractLsb' 58 2)) (dirOf (w.extractLsb' 57 1)) (w.extractLsb' 55 2) (w.extractLsb' 16 32)
      (w.extractLsb' 0 16) = w := by
  rw [busWord, code_initOf, code_dirOf, ← hclass, ← hz]
  iterate 6 rw [BitVec.extractLsb'_append_extractLsb'_eq_extractLsb' (by rfl)]
  exact field_whole w

/-- A format E word from its fields. -/
theorem eventWord_of_fields (hclass : w.extractLsb' 60 4 = 2) (hz : w.extractLsb' 32 20 = 0) :
    eventWord (w.extractLsb' 52 8) (w.extractLsb' 0 32) = w := by
  rw [eventWord, ← hclass, ← hz]
  iterate 3 rw [BitVec.extractLsb'_append_extractLsb'_eq_extractLsb' (by rfl)]
  exact field_whole w

/-- A format I word from its fields. -/
theorem internalWord_of_fields (hclass : w.extractLsb' 60 4 = 3) (hz : w.extractLsb' 32 18 = 0) :
    internalWord (w.extractLsb' 52 8) (w.extractLsb' 50 2) (w.extractLsb' 0 32) = w := by
  rw [internalWord, ← hclass, ← hz]
  iterate 4 rw [BitVec.extractLsb'_append_extractLsb'_eq_extractLsb' (by rfl)]
  exact field_whole w

/-! ### Arguments from their fields -/

theorem flagArg_of_fields (h : arg.extractLsb' 1 31 = 0) : flagArg (flagOf (arg.extractLsb' 0 1)) = arg := by
  rw [flagArg, bit_flagOf, ← h, BitVec.extractLsb'_append_extractLsb'_eq_extractLsb' (by rfl)]
  exact field_whole arg

theorem lineArg_of_fields (h : arg.extractLsb' 9 23 = 0) : (0 : BitVec 23) ++ arg.extractLsb' 0 9 = arg := by
  rw [← h, BitVec.extractLsb'_append_extractLsb'_eq_extractLsb' (by rfl)]
  exact field_whole arg

theorem channelArg_of_fields (h : arg.extractLsb' 13 19 = 0) :
    channelArg (channelOf (arg.extractLsb' 12 1)) (arg.extractLsb' 0 12) = arg := by
  rw [channelArg, code_channelOf, ← h]
  iterate 2 rw [BitVec.extractLsb'_append_extractLsb'_eq_extractLsb' (by rfl)]
  exact field_whole arg

theorem sourceArg_of_fields (h : arg.extractLsb' 3 29 = 0) {k : Source} (hk : sourceOf (arg.extractLsb' 0 3) = some k) :
    sourceArg k = arg := by
  rw [sourceArg, ← sourceOf_eq_some.mp hk, ← h, BitVec.extractLsb'_append_extractLsb'_eq_extractLsb' (by rfl)]
  exact field_whole arg

theorem raiseArg_of_fields (h : arg.extractLsb' 4 28 = 0) {k : Source} (hk : sourceOf (arg.extractLsb' 0 3) = some k) :
    (0 : BitVec 28) ++ (coreOf (arg.extractLsb' 3 1)).code ++ k.code = arg := by
  rw [code_coreOf, ← sourceOf_eq_some.mp hk, ← h]
  iterate 2 rw [BitVec.extractLsb'_append_extractLsb'_eq_extractLsb' (by rfl)]
  exact field_whole arg

/-- The converse of `field_eq_zero_of_mask`: a mask that allows every bit below `k`. -/
theorem masked_of_field_eq_zero {mask : BitVec 32} {k n : Nat} (h : arg.extractLsb' k n = 0) (hkn : k + n = 32)
    (hm : ∀ i < k, mask.getLsbD i = true) : arg &&& ~~~mask = 0 := by
  ext i hi
  by_cases low : i < k
  · have allowed : mask[i] = true := hm i low
    simp [allowed]
  · have bit : (arg.extractLsb' k n).getLsbD (i - k) = false := by rw [h]; exact BitVec.getLsbD_zero
    have unused : arg[i] = false := by
      rw [BitVec.getLsbD_extractLsb', decide_eq_true (by omega), Nat.add_sub_cancel' (by omega)] at bit
      exact bit
    simp [unused]

end Sys2Proof.EncodingProofs
end

section
/-! The rows of the three formats: what the decoder answers, as a relation of the operation to the fields of its word
(30_encoding.md R124 to R126, R133). -/

namespace Sys2Proof.EncodingProofs
open Sys2Proof.Machine Sys2Proof.Laws Sys2Proof.StateProofs

/- Elaborate these proofs one after the other. All at once, while the kernel still checks the text above, they can need
more threads than the check's limit on memory has room for. -/
set_option deprecated.oldSectionVars true

/-- The rows of format B, of either level: level, lanes, operation. -/
inductive BusRow (i : Initiator) (rw : Dir) (a : Long) (d : Word) : Level → BitVec 2 → Instr → Prop
  | generic {ul ln} : lanesOf ul = some ln → BusRow i rw a d .generic ul (genericInstr i rw ln a d)
  | target {ul ln} : lanesOf ul = some ln → BusRow i rw a d .target ul (targetInstr i rw ln a d)
  | noLane {ul} : lanesOf ul = none → BusRow i rw a d .generic ul (.busNoLane i rw a d)

/-- The rows of level event: operation, opcode, argument. -/
inductive EventRow : Instr → BitVec 8 → BitVec 32 → Prop
  | power (b) : EventRow (.power b) 0x01 (flagArg b)
  | restart : EventRow .restart 0x02 0
  | unload : EventRow .unload 0x03 0
  | vblank (b) : EventRow (.vblank b) 0x10 (flagArg b)
  | hblank (b) : EventRow (.hblank b) 0x11 (flagArg b)
  | scanline (y) : EventRow (.scanline y) 0x12 ((0 : BitVec 23) ++ y)
  | hostAdvance (n) : EventRow (.hostAdvance n) 0x20 n
  | hostSync : EventRow .hostSync 0x21 0

/-- The rows of level internal: operation, opcode, performer, argument. -/
inductive InternalRow : Instr → BitVec 8 → BitVec 2 → BitVec 32 → Prop
  | coreStepM : InternalRow .coreStepM 0x01 1 0
  | coreStepS : InternalRow .coreStepS 0x01 2 0
  | syncResolve (t) : InternalRow (.syncResolve t) 0x02 t.code 0
  | audioStep : InternalRow .audioStep 0x03 3 0
  | pwmTimerStep : InternalRow .pwmTimerStep 0x10 3 0
  | sampleTick : InternalRow .sampleTick 0x11 3 0
  | fifoWrite (t ch v) : InternalRow (.fifoWrite t ch v) 0x12 t.code (channelArg ch v)
  | fifoRead (ch) : InternalRow (.fifoRead ch) 0x13 3 (channelArg ch 0)
  | fifoDrain (ch) : InternalRow (.fifoDrain ch) 0x14 3 (channelArg ch 0)
  | dreqStep : InternalRow .dreqStep 0x20 3 0
  | autofillStep : InternalRow .autofillStep 0x28 3 0
  | irqRaise (t c k) : InternalRow (.irqRaise t c k) 0x30 t.code ((0 : BitVec 28) ++ c.code ++ k.code)
  | irqQueryM : InternalRow .irqQueryM 0x31 1 0
  | irqQueryS : InternalRow .irqQueryS 0x31 2 0
  | irqDispatchM (k) : InternalRow (.irqDispatchM k) 0x32 1 (sourceArg k)
  | irqDispatchS (k) : InternalRow (.irqDispatchS k) 0x32 2 (sourceArg k)
  | latchCommit : InternalRow .latchCommit 0x40 0 0
  | fbCommit (t) : InternalRow (.fbCommit t) 0x41 t.code 0
  | selectFb (t b) : InternalRow (.selectFb t b) 0x42 t.code (flagArg b)

/-- Whatever a partial decoder answers satisfies `P`. -/
def Answers (P : Instr → Prop) (o : Option Instr) : Prop := ∀ j, o = some j → P j

section
variable {P : Instr → Prop} {c : Prop} [Decidable c] {x y : Option Instr} {j : Instr}

theorem Answers.none : Answers P none := nofun

theorem Answers.ite (hx : c → Answers P x) (hy : Answers P y) : Answers P (if c then x else y) :=
  iteInduction hx fun _ => hy

theorem Answers.guardOr (h : c → P j) (hy : Answers P y) : Answers P (if c then some j else y) :=
  .ite (fun hc _ e => Option.some.inj e ▸ h hc) hy

theorem Answers.guard (h : c → P j) : Answers P (if c then some j else .none) := .guardOr h .none

theorem Answers.map {o : Option Source} {f : Source → Instr} (h : ∀ k, o = some k → P (f k)) :
    Answers P (o.map f) := fun j e => by
  obtain ⟨k, hk, rfl⟩ := Option.map_eq_some_iff.mp e
  exact h k hk

end

/-- A row read off from an opcode and an argument that are equal to its own. -/
theorem EventRow.of_fields {j : Instr} {op op' : BitVec 8} {arg arg' : BitVec 32} (h : EventRow j op' arg')
    (hop : op = op') (harg : arg' = arg) : EventRow j op arg := by
  rwa [hop, ← harg]

theorem InternalRow.of_fields {j : Instr} {op op' : BitVec 8} {thr thr' : BitVec 2} {arg arg' : BitVec 32}
    (h : InternalRow j op' thr' arg') (hop : op = op') (hthr : thr' = thr) (harg : arg' = arg) :
    InternalRow j op thr arg := by
  rwa [hop, ← hthr, ← harg]

/-- What a bus word decodes to. -/
theorem decodeBus_eq_some {lvl : Level} {i : Initiator} {rw : Dir} {ul : BitVec 2} {z : BitVec 7} {a : Long} {d : Word}
    {j : Instr} : decodeBus lvl i rw ul z a d = some j ↔ (z = 0 ∧ rw.dataOk d = true) ∧ BusRow i rw a d lvl ul j := by
  unfold decodeBus
  constructor
  · intro h
    obtain ⟨hz, h⟩ := Option.ite_none_right_eq_some.mp h
    refine ⟨hz, ?_⟩
    split at h
    all_goals cases h
    · exact .generic ‹_›
    · exact .target ‹_›
    · exact .noLane ‹_›
  · rintro ⟨hz, row⟩
    rw [if_pos hz]
    cases row with
    | generic hl | target hl | noLane hl => rw [hl]

/-- An event word that decodes is in a row of the table. -/
theorem decodeEvent_answers (op : BitVec 8) (z : BitVec 20) (arg : BitVec 32) :
    Answers (fun j => z = 0 ∧ EventRow j op arg) (decodeEvent op z arg) :=
  .ite (fun hz =>
    .ite (fun hop => .guard fun h => ⟨hz, (EventRow.power _).of_fields hop (flagArg_of_fields h)⟩) <|
    .ite (fun hop => .guard fun h => ⟨hz, EventRow.restart.of_fields hop h.symm⟩) <|
    .ite (fun hop => .guard fun h => ⟨hz, EventRow.unload.of_fields hop h.symm⟩) <|
    .ite (fun hop => .guard fun h => ⟨hz, (EventRow.vblank _).of_fields hop (flagArg_of_fields h)⟩) <|
    .ite (fun hop => .guard fun h => ⟨hz, (EventRow.hblank _).of_fields hop (flagArg_of_fields h)⟩) <|
    .ite (fun hop => .guard fun h => ⟨hz, (EventRow.scanline _).of_fields hop (lineArg_of_fields h)⟩) <|
    .guardOr (fun hop => ⟨hz, (EventRow.hostAdvance _).of_fields hop rfl⟩) <|
    .ite (fun hop => .guard fun h => ⟨hz, EventRow.hostSync.of_fields hop h.symm⟩) .none)
  .none

/-- An internal-step word that decodes is in a row of the table. -/
theorem decodeInternal_answers (op : BitVec 8) (thr : BitVec 2) (z : BitVec 18) (arg : BitVec 32) :
    Answers (fun j => z = 0 ∧ InternalRow j op thr arg) (decodeInternal op thr z arg) :=
  .ite (fun hz =>
    .ite (fun hop => .guardOr (fun ⟨h, ht⟩ => ⟨hz, InternalRow.coreStepM.of_fields hop ht.symm h.symm⟩) <|
      .guard fun ⟨h, ht⟩ => ⟨hz, InternalRow.coreStepS.of_fields hop ht.symm h.symm⟩) <|
    .ite (fun hop => .guard fun h => ⟨hz, (InternalRow.syncResolve _).of_fields hop (code_agentOf thr) h.symm⟩) <|
    .ite (fun hop => .guard fun ⟨h, ht⟩ => ⟨hz, InternalRow.audioStep.of_fields hop ht.symm h.symm⟩) <|
    .ite (fun hop => .guard fun ⟨h, ht⟩ => ⟨hz, InternalRow.pwmTimerStep.of_fields hop ht.symm h.symm⟩) <|
    .ite (fun hop => .guard fun ⟨h, ht⟩ => ⟨hz, InternalRow.sampleTick.of_fields hop ht.symm h.symm⟩) <|
    .ite (fun hop => .guard fun h =>
      ⟨hz, (InternalRow.fifoWrite _ _ _).of_fields hop (code_agentOf thr) (channelArg_of_fields h)⟩) <|
    .ite (fun hop => .guard fun ⟨h, hv, ht⟩ =>
      ⟨hz, (InternalRow.fifoRead _).of_fields hop ht.symm (hv ▸ channelArg_of_fields h)⟩) <|
    .ite (fun hop => .guard fun ⟨h, hv, ht⟩ =>
      ⟨hz, (InternalRow.fifoDrain _).of_fields hop ht.symm (hv ▸ channelArg_of_fields h)⟩) <|
    .ite (fun hop => .guard fun ⟨h, ht⟩ => ⟨hz, InternalRow.dreqStep.of_fields hop ht.symm h.symm⟩) <|
    .ite (fun hop => .guard fun ⟨h, ht⟩ => ⟨hz, InternalRow.autofillStep.of_fields hop ht.symm h.symm⟩) <|
    .ite (fun hop => .ite (fun h => .map fun k hk =>
      ⟨hz, (InternalRow.irqRaise _ _ k).of_fields hop (code_agentOf thr) (raiseArg_of_fields h hk)⟩) .none) <|
    .ite (fun hop => .guardOr (fun ⟨h, ht⟩ => ⟨hz, InternalRow.irqQueryM.of_fields hop ht.symm h.symm⟩) <|
      .guard fun ⟨h, ht⟩ => ⟨hz, InternalRow.irqQueryS.of_fields hop ht.symm h.symm⟩) <|
    .ite (fun hop =>
      .ite (fun ⟨h, ht⟩ => .map fun k hk =>
        ⟨hz, (InternalRow.irqDispatchM k).of_fields hop ht.symm (sourceArg_of_fields h hk)⟩) <|
      .ite (fun ⟨h, ht⟩ => .map fun k hk =>
        ⟨hz, (InternalRow.irqDispatchS k).of_fields hop ht.symm (sourceArg_of_fields h hk)⟩) .none) <|
    .ite (fun hop => .guard fun ⟨h, ht⟩ => ⟨hz, InternalRow.latchCommit.of_fields hop ht.symm h.symm⟩) <|
    .ite (fun hop => .guard fun h => ⟨hz, (InternalRow.fbCommit _).of_fields hop (code_agentOf thr) h.symm⟩) <|
    .ite (fun hop => .guard fun h =>
      ⟨hz, (InternalRow.selectFb _ _).of_fields hop (code_agentOf thr) (flagArg_of_fields h)⟩) .none)
  .none

end Sys2Proof.EncodingProofs
end

section
/-! Decode and encode against each other, and the acceptance set of the decoder (30_encoding.md R120 to R133). -/

namespace Sys2Proof.EncodingProofs
open Sys2Proof.Machine Sys2Proof.Laws Sys2Proof.StateProofs

/- Elaborate these proofs one after the other. All at once, while the kernel still checks the text above, they can need
more threads than the check's limit on memory has room for. -/
set_option deprecated.oldSectionVars true

/-- Settles O1: one lemma of the family `EncodeDecode` for each row. -/
theorem encodedOperationDecodesBack : Obligations.EncodedOperationDecodesBack := by
  intro i
  cases i
  case rd16 => exact EncodeDecode.rd16 _ _
  case rd8u => exact EncodeDecode.rd8u _ _
  case rd8l => exact EncodeDecode.rd8l _ _
  case wr16 => exact EncodeDecode.wr16 _ _ _
  case wr8u => exact EncodeDecode.wr8u _ _ _
  case wr8l => exact EncodeDecode.wr8l _ _ _
  case busNoLane => exact EncodeDecode.busNoLane _ _ _ _
  case irqenRd => exact EncodeDecode.irqenRd _ _
  case irqenWr => exact EncodeDecode.irqenWr _ _ _
  case irqstatRd => exact EncodeDecode.irqstatRd _ _
  case irqstatWr => exact EncodeDecode.irqstatWr _ _ _
  case irqackRd => exact EncodeDecode.irqackRd _ _
  case irqackWr => exact EncodeDecode.irqackWr _ _ _
  case adapterRd => exact EncodeDecode.adapterRd _ _
  case adapterWr => exact EncodeDecode.adapterWr _ _ _
  case hperiodRd => exact EncodeDecode.hperiodRd _ _
  case hperiodWr => exact EncodeDecode.hperiodWr _ _ _
  case hcounterRd => exact EncodeDecode.hcounterRd _ _
  case hcounterWr => exact EncodeDecode.hcounterWr _ _ _
  case cmdreqRd => exact EncodeDecode.cmdreqRd _ _
  case cmdreqWr => exact EncodeDecode.cmdreqWr _ _ _
  case mbox0Rd => exact EncodeDecode.mbox0Rd _ _
  case mbox0Wr => exact EncodeDecode.mbox0Wr _ _ _
  case mbox1Rd => exact EncodeDecode.mbox1Rd _ _
  case mbox1Wr => exact EncodeDecode.mbox1Wr _ _ _
  case mbox2Rd => exact EncodeDecode.mbox2Rd _ _
  case mbox2Wr => exact EncodeDecode.mbox2Wr _ _ _
  case mbox3Rd => exact EncodeDecode.mbox3Rd _ _
  case mbox3Wr => exact EncodeDecode.mbox3Wr _ _ _
  case mbox4Rd => exact EncodeDecode.mbox4Rd _ _
  case mbox4Wr => exact EncodeDecode.mbox4Wr _ _ _
  case mbox5Rd => exact EncodeDecode.mbox5Rd _ _
  case mbox5Wr => exact EncodeDecode.mbox5Wr _ _ _
  case mbox6Rd => exact EncodeDecode.mbox6Rd _ _
  case mbox6Wr => exact EncodeDecode.mbox6Wr _ _ _
  case mbox7Rd => exact EncodeDecode.mbox7Rd _ _
  case mbox7Wr => exact EncodeDecode.mbox7Wr _ _ _
  case pwmctlRd => exact EncodeDecode.pwmctlRd _ _
  case pwmctlWr => exact EncodeDecode.pwmctlWr _ _ _
  case pwmcycRd => exact EncodeDecode.pwmcycRd _ _
  case pwmcycWr => exact EncodeDecode.pwmcycWr _ _ _
  case pwmlRd => exact EncodeDecode.pwmlRd _ _
  case pwmlWr => exact EncodeDecode.pwmlWr _ _ _
  case pwmrRd => exact EncodeDecode.pwmrRd _ _
  case pwmrWr => exact EncodeDecode.pwmrWr _ _ _
  case dreqctlRd => exact EncodeDecode.dreqctlRd _ _
  case dreqctlWr => exact EncodeDecode.dreqctlWr _ _ _
  case dreqsrchRd => exact EncodeDecode.dreqsrchRd _ _
  case dreqsrchWr => exact EncodeDecode.dreqsrchWr _ _ _
  case dreqsrclRd => exact EncodeDecode.dreqsrclRd _ _
  case dreqsrclWr => exact EncodeDecode.dreqsrclWr _ _ _
  case dreqdsthRd => exact EncodeDecode.dreqdsthRd _ _
  case dreqdsthWr => exact EncodeDecode.dreqdsthWr _ _ _
  case dreqdstlRd => exact EncodeDecode.dreqdstlRd _ _
  case dreqdstlWr => exact EncodeDecode.dreqdstlWr _ _ _
  case dreqlenRd => exact EncodeDecode.dreqlenRd _ _
  case dreqlenWr => exact EncodeDecode.dreqlenWr _ _ _
  case vdpmodeRd => exact EncodeDecode.vdpmodeRd _ _
  case vdpmodeWr => exact EncodeDecode.vdpmodeWr _ _ _
  case vdpshiftRd => exact EncodeDecode.vdpshiftRd _ _
  case vdpshiftWr => exact EncodeDecode.vdpshiftWr _ _ _
  case aflenRd => exact EncodeDecode.aflenRd _ _
  case aflenWr => exact EncodeDecode.aflenWr _ _ _
  case afaddrRd => exact EncodeDecode.afaddrRd _ _
  case afaddrWr => exact EncodeDecode.afaddrWr _ _ _
  case afdataRd => exact EncodeDecode.afdataRd _ _
  case afdataWr => exact EncodeDecode.afdataWr _ _ _
  case fbctlRd => exact EncodeDecode.fbctlRd _ _
  case fbctlWr => exact EncodeDecode.fbctlWr _ _ _
  case bootromRd => exact EncodeDecode.bootromRd _ _ _
  case paletteRd => exact EncodeDecode.paletteRd _ _ _
  case vramRd => exact EncodeDecode.vramRd _ _ _
  case sdramLoRd => exact EncodeDecode.sdramLoRd _ _ _
  case sdramHiRd => exact EncodeDecode.sdramHiRd _ _ _
  case reservedRd => exact EncodeDecode.reservedRd _ _ _
  case externalRd => exact EncodeDecode.externalRd _ _ _
  case bootromWr => exact EncodeDecode.bootromWr _ _ _ _
  case paletteWr => exact EncodeDecode.paletteWr _ _ _ _
  case vramWr => exact EncodeDecode.vramWr _ _ _ _
  case sdramLoWr => exact EncodeDecode.sdramLoWr _ _ _ _
  case sdramHiWr => exact EncodeDecode.sdramHiWr _ _ _ _
  case reservedWr => exact EncodeDecode.reservedWr _ _ _ _
  case externalWr => exact EncodeDecode.externalWr _ _ _ _
  case power => exact EncodeDecode.power _
  case restart => exact EncodeDecode.restart
  case unload => exact EncodeDecode.unload
  case vblank => exact EncodeDecode.vblank _
  case hblank => exact EncodeDecode.hblank _
  case scanline => exact EncodeDecode.scanline _
  case hostAdvance => exact EncodeDecode.hostAdvance _
  case hostSync => exact EncodeDecode.hostSync
  case coreStepM => exact EncodeDecode.coreStepM
  case coreStepS => exact EncodeDecode.coreStepS
  case syncResolve => exact EncodeDecode.syncResolve _
  case audioStep => exact EncodeDecode.audioStep
  case pwmTimerStep => exact EncodeDecode.pwmTimerStep
  case sampleTick => exact EncodeDecode.sampleTick
  case fifoWrite => exact EncodeDecode.fifoWrite _ _ _
  case fifoRead => exact EncodeDecode.fifoRead _
  case fifoDrain => exact EncodeDecode.fifoDrain _
  case dreqStep => exact EncodeDecode.dreqStep
  case autofillStep => exact EncodeDecode.autofillStep
  case irqRaise => exact EncodeDecode.irqRaise _ _ _
  case irqQueryM => exact EncodeDecode.irqQueryM
  case irqQueryS => exact EncodeDecode.irqQueryS
  case irqDispatchM => exact EncodeDecode.irqDispatchM _
  case irqDispatchS => exact EncodeDecode.irqDispatchS _
  case latchCommit => exact EncodeDecode.latchCommit
  case fbCommit => exact EncodeDecode.fbCommit _
  case selectFb => exact EncodeDecode.selectFb _ _

/-- `j` is a well-formed operation whose word is `w`. -/
def Spells (j : Instr) (w : OpWord) : Prop := j.wellFormed = true ∧ encode j = w

theorem Spells.decodes {j : Instr} {w : OpWord} (h : Spells j w) : decodeAt j.level w = some j :=
  h.2 ▸ encodedOperationDecodesBack j h.1

/-! ### The rows of formats E and I are the words of their tables -/

section
variable {j : Instr} {op : BitVec 8} {thr : BitVec 2} {arg : BitVec 32}

theorem EventRow.spells (h : EventRow j op arg) : Spells j (eventWord op arg) := by cases h <;> exact ⟨rfl, rfl⟩

theorem EventRow.level_eq (h : EventRow j op arg) : j.level = .target := by cases h <;> rfl

theorem InternalRow.spells (h : InternalRow j op thr arg) : Spells j (internalWord op thr arg) := by
  cases h <;> exact ⟨rfl, rfl⟩

theorem InternalRow.level_eq (h : InternalRow j op thr arg) : j.level = .target := by cases h <;> rfl

/-- What an event word decodes to. -/
theorem decodeEvent_eq_some {z : BitVec 20} : decodeEvent op z arg = some j ↔ z = 0 ∧ EventRow j op arg := by
  refine ⟨decodeEvent_answers op z arg j, ?_⟩
  rintro ⟨rfl, row⟩
  rw [← decodeAt_eventWord .target, ← row.level_eq]
  exact row.spells.decodes

/-- What an internal-step word decodes to. -/
theorem decodeInternal_eq_some {z : BitVec 18} :
    decodeInternal op thr z arg = some j ↔ z = 0 ∧ InternalRow j op thr arg := by
  refine ⟨decodeInternal_answers op thr z arg j, ?_⟩
  rintro ⟨rfl, row⟩
  rw [← decodeAt_internalWord .target, ← row.level_eq]
  exact row.spells.decodes

/-- An argument that uses no bit is 0. -/
theorem zero_eq_of_mask (h : arg &&& ~~~(0 : BitVec 32) = 0) : 0 = arg :=
  ((field_whole arg).symm.trans (field_eq_zero_of_mask h rfl (by decide))).symm

/-- An argument that uses one bit is a flag. -/
theorem flagArg_of_mask (h : arg &&& ~~~(1 : BitVec 32) = 0) : flagArg (flagOf (arg.extractLsb' 0 1)) = arg :=
  flagArg_of_fields (field_eq_zero_of_mask h rfl (by decide))

/-- An argument that uses bit 12 names a channel. -/
theorem channelArg_of_mask (h : arg &&& ~~~(0x1000 : BitVec 32) = 0) :
    channelArg (channelOf (arg.extractLsb' 12 1)) 0 = arg := by
  have noSample : arg.extractLsb' 0 12 = 0 := by
    have low := congrArg (BitVec.extractLsb' 0 12) h
    rwa [BitVec.extractLsb'_and, show (~~~(0x1000 : BitVec 32)).extractLsb' 0 12 = BitVec.allOnes 12 by decide,
      BitVec.and_allOnes] at low
  rw [← noSample]
  exact channelArg_of_fields (field_eq_zero_of_mask h rfl (by decide))

theorem code_mem_agents (t : Agent) : t.code ∈ [(0 : BitVec 2), 1, 2, 3] := by cases t <;> decide

/-- A row of level event for exactly the words of the event table. -/
theorem exists_eventRow :
    (∃ j, EventRow j op arg) ↔ ∃ e ∈ eventTable, op = e.1 ∧ arg &&& ~~~e.2 = 0 := by
  constructor
  · rintro ⟨j, row⟩
    cases row with
    | power b => exact ⟨(0x01, 1), by decide, rfl, masked_of_field_eq_zero (flagArg_high b) rfl (by decide)⟩
    | restart => exact ⟨(0x02, 0), by decide, rfl, by decide⟩
    | unload => exact ⟨(0x03, 0), by decide, rfl, by decide⟩
    | vblank b => exact ⟨(0x10, 1), by decide, rfl, masked_of_field_eq_zero (flagArg_high b) rfl (by decide)⟩
    | hblank b => exact ⟨(0x11, 1), by decide, rfl, masked_of_field_eq_zero (flagArg_high b) rfl (by decide)⟩
    | scanline y =>
      have high : ((0 : BitVec 23) ++ y).extractLsb' 9 23 = 0 := (field_high _ _ (by omega)).trans (field_whole _)
      exact ⟨(0x12, 0x1FF), by decide, rfl, masked_of_field_eq_zero high rfl (by decide)⟩
    | hostAdvance => exact ⟨(0x20, 0xFFFFFFFF), by decide, rfl, BitVec.and_zero⟩
    | hostSync => exact ⟨(0x21, 0), by decide, rfl, by decide⟩
  · rintro ⟨e, he, rfl, harg⟩
    simp only [eventTable, List.mem_cons, List.not_mem_nil, or_false] at he
    rcases he with rfl | rfl | rfl | rfl | rfl | rfl | rfl | rfl
    · exact ⟨_, (EventRow.power _).of_fields rfl (flagArg_of_mask harg)⟩
    · exact ⟨_, EventRow.restart.of_fields rfl (zero_eq_of_mask harg)⟩
    · exact ⟨_, EventRow.unload.of_fields rfl (zero_eq_of_mask harg)⟩
    · exact ⟨_, (EventRow.vblank _).of_fields rfl (flagArg_of_mask harg)⟩
    · exact ⟨_, (EventRow.hblank _).of_fields rfl (flagArg_of_mask harg)⟩
    · exact ⟨_, (EventRow.scanline _).of_fields rfl (lineArg_of_fields (field_eq_zero_of_mask harg rfl (by decide)))⟩
    · exact ⟨_, .hostAdvance arg⟩
    · exact ⟨_, EventRow.hostSync.of_fields rfl (zero_eq_of_mask harg)⟩

/-- The words of the table of internal steps with this opcode, performer and argument (30_encoding.md R125). -/
def InTable (op : BitVec 8) (thr : BitVec 2) (arg : BitVec 32) : Prop :=
  (∃ e ∈ internalTable, op = e.1 ∧ thr ∈ e.2.1 ∧ arg &&& ~~~e.2.2 = 0) ∧
    (namesSource op → (arg.extractLsb' 0 3).toNat ≤ 4)

/-- Two opcodes only name a source; for the others the clause about it asks for nothing. -/
theorem source_free {op : BitVec 8} {p : Prop} (h : op ≠ 0x30 ∧ op ≠ 0x32) : namesSource op → p :=
  fun named => absurd named (not_or.mpr h)

theorem inTable_of_mem {e : BitVec 8 × List (BitVec 2) × BitVec 32} (he : e ∈ internalTable) (ht : thr ∈ e.2.1)
    (harg : arg &&& ~~~e.2.2 = 0) (hs : namesSource e.1 → (arg.extractLsb' 0 3).toNat ≤ 4) : InTable e.1 thr arg :=
  ⟨⟨e, he, rfl, ht, harg⟩, hs⟩

/-- A row of level internal is in the table. -/
theorem InternalRow.inTable (row : InternalRow j op thr arg) : InTable op thr arg := by
  cases row with
  | coreStepM | coreStepS | audioStep | pwmTimerStep | sampleTick | dreqStep | autofillStep | irqQueryM | irqQueryS
    | latchCommit =>
    unfold InTable namesSource
    decide
  | syncResolve t =>
    exact inTable_of_mem (e := (0x02, [0, 1, 2, 3], 0)) (by decide) (code_mem_agents t) (by decide)
      (source_free (by decide))
  | fifoWrite t ch v =>
    exact inTable_of_mem (e := (0x12, [0, 1, 2, 3], 0x1FFF)) (by decide) (code_mem_agents t)
      (masked_of_field_eq_zero (channelArg_high ch v) rfl (by decide)) (source_free (by decide))
  | fifoRead ch | fifoDrain ch =>
    unfold InTable namesSource
    cases ch <;> decide
  | irqRaise t c k =>
    exact inTable_of_mem (e := (0x30, [0, 1, 2, 3], 0xF)) (by decide) (code_mem_agents t)
      (by cases c <;> cases k <;> decide) (fun _ => by cases c <;> cases k <;> decide)
  | irqDispatchM k | irqDispatchS k =>
    unfold InTable namesSource
    cases k <;> decide
  | fbCommit t =>
    exact inTable_of_mem (e := (0x41, [0, 1, 2, 3], 0)) (by decide) (code_mem_agents t) (by decide)
      (source_free (by decide))
  | selectFb t b =>
    exact inTable_of_mem (e := (0x42, [0, 1, 2, 3], 1)) (by decide) (code_mem_agents t)
      (masked_of_field_eq_zero (flagArg_high b) rfl (by decide)) (source_free (by decide))

/-- A word of the table has a row. -/
theorem exists_internalRow_of_inTable (h : InTable op thr arg) : ∃ j, InternalRow j op thr arg := by
  obtain ⟨⟨e, he, rfl, ht, harg⟩, hsource⟩ := h
  have source (hs : namesSource e.1) : ∃ k, sourceOf (arg.extractLsb' 0 3) = some k :=
    Option.isSome_iff_exists.mp ((sourceOf_isSome _).mpr (hsource hs))
  simp only [internalTable, List.mem_cons, List.not_mem_nil, or_false] at he
  rcases he with rfl | rfl | rfl | rfl | rfl | rfl | rfl | rfl | rfl | rfl | rfl | rfl | rfl | rfl | rfl | rfl
  all_goals simp only [List.mem_cons, List.not_mem_nil, or_false] at ht
  · rcases ht with rfl | rfl
    · exact ⟨_, InternalRow.coreStepM.of_fields rfl rfl (zero_eq_of_mask harg)⟩
    · exact ⟨_, InternalRow.coreStepS.of_fields rfl rfl (zero_eq_of_mask harg)⟩
  · exact ⟨_, (InternalRow.syncResolve _).of_fields rfl (code_agentOf thr) (zero_eq_of_mask harg)⟩
  · exact ⟨_, InternalRow.audioStep.of_fields rfl ht.symm (zero_eq_of_mask harg)⟩
  · exact ⟨_, InternalRow.pwmTimerStep.of_fields rfl ht.symm (zero_eq_of_mask harg)⟩
  · exact ⟨_, InternalRow.sampleTick.of_fields rfl ht.symm (zero_eq_of_mask harg)⟩
  · exact ⟨_, (InternalRow.fifoWrite _ _ _).of_fields rfl (code_agentOf thr)
      (channelArg_of_fields (field_eq_zero_of_mask harg rfl (by decide)))⟩
  · exact ⟨_, (InternalRow.fifoRead _).of_fields rfl ht.symm (channelArg_of_mask harg)⟩
  · exact ⟨_, (InternalRow.fifoDrain _).of_fields rfl ht.symm (channelArg_of_mask harg)⟩
  · exact ⟨_, InternalRow.dreqStep.of_fields rfl ht.symm (zero_eq_of_mask harg)⟩
  · exact ⟨_, InternalRow.autofillStep.of_fields rfl ht.symm (zero_eq_of_mask harg)⟩
  · obtain ⟨k, hk⟩ := source (.inl rfl)
    exact ⟨_, (InternalRow.irqRaise _ _ k).of_fields rfl (code_agentOf thr)
      (raiseArg_of_fields (field_eq_zero_of_mask harg rfl (by decide)) hk)⟩
  · rcases ht with rfl | rfl
    · exact ⟨_, InternalRow.irqQueryM.of_fields rfl rfl (zero_eq_of_mask harg)⟩
    · exact ⟨_, InternalRow.irqQueryS.of_fields rfl rfl (zero_eq_of_mask harg)⟩
  · obtain ⟨k, hk⟩ := source (.inr rfl)
    have named := sourceArg_of_fields (field_eq_zero_of_mask harg rfl (by decide)) hk
    rcases ht with rfl | rfl
    · exact ⟨_, (InternalRow.irqDispatchM k).of_fields rfl rfl named⟩
    · exact ⟨_, (InternalRow.irqDispatchS k).of_fields rfl rfl named⟩
  · exact ⟨_, InternalRow.latchCommit.of_fields rfl ht.symm (zero_eq_of_mask harg)⟩
  · exact ⟨_, (InternalRow.fbCommit _).of_fields rfl (code_agentOf thr) (zero_eq_of_mask harg)⟩
  · exact ⟨_, (InternalRow.selectFb _ _).of_fields rfl (code_agentOf thr) (flagArg_of_mask harg)⟩

end

/-! ### The acceptance set -/

/-- A row of format B for a word that selects a lane, and at level generic for the others too. -/
theorem exists_busRow {i : Initiator} {rw : Dir} {a : Long} {d : Word} {lvl : Level} {ul : BitVec 2} :
    (∃ j, BusRow i rw a d lvl ul j) ↔ (lvl = .target → ul ≠ 0) := by
  have lane {ln : Lanes} (hl : lanesOf ul = some ln) : ul ≠ 0 :=
    fun noLane => nomatch hl.symm.trans (lanesOf_eq_none.mpr noLane)
  constructor
  · rintro ⟨j, row⟩
    cases row with
    | generic | noLane => exact nofun
    | target hl => exact fun _ => lane hl
  · intro h
    rcases hl : lanesOf ul with _ | ln
    · cases lvl
      · exact ⟨_, .noLane hl⟩
      · exact absurd (lanesOf_eq_none.mp hl) (h rfl)
    · cases lvl
      · exact ⟨_, .generic hl⟩
      · exact ⟨_, .target hl⟩

/-- When a format B word decodes. -/
theorem decodeBus_isSome (lvl : Level) (i : Initiator) (rw : Dir) (ul : BitVec 2) (z : BitVec 7) (a : Long) (d : Word) :
    (decodeBus lvl i rw ul z a d).isSome = true ↔
      (z = 0 ∧ rw.dataOk d = true) ∧ (lvl = .target → ul ≠ 0) := by
  rw [Option.isSome_iff_exists, ← exists_busRow (i := i) (rw := rw) (a := a) (d := d), ← exists_and_left]
  exact exists_congr fun j => decodeBus_eq_some

/-- When a format E word decodes. -/
theorem decodeEvent_isSome (op : BitVec 8) (z : BitVec 20) (arg : BitVec 32) :
    (decodeEvent op z arg).isSome = true ↔ z = 0 ∧ ∃ e ∈ eventTable, op = e.1 ∧ arg &&& ~~~e.2 = 0 := by
  rw [Option.isSome_iff_exists, ← exists_eventRow, ← exists_and_left]
  exact exists_congr fun j => decodeEvent_eq_some

/-- When a format I word decodes. -/
theorem decodeInternal_isSome (op : BitVec 8) (thr : BitVec 2) (z : BitVec 18) (arg : BitVec 32) :
    (decodeInternal op thr z arg).isSome = true ↔ z = 0 ∧ InTable op thr arg := by
  have rows : (∃ j, InternalRow j op thr arg) ↔ InTable op thr arg :=
    ⟨fun ⟨_, row⟩ => row.inTable, exists_internalRow_of_inTable⟩
  rw [Option.isSome_iff_exists, ← rows, ← exists_and_left]
  exact exists_congr fun j => decodeInternal_eq_some

section
variable {lvl : Level} {w : OpWord}

theorem decodeAt_class_bus (h : w.extractLsb' 60 4 = 1) : decodeAt lvl w =
    decodeBus lvl (initOf (w.extractLsb' 58 2)) (dirOf (w.extractLsb' 57 1)) (w.extractLsb' 55 2) (w.extractLsb' 48 7)
      (w.extractLsb' 16 32) (w.extractLsb' 0 16) := by rw [decodeAt, if_pos h]

theorem decodeAt_class_event (h : w.extractLsb' 60 4 = 2) : decodeAt lvl w =
    decodeEvent (w.extractLsb' 52 8) (w.extractLsb' 32 20) (w.extractLsb' 0 32) := by
  rw [decodeAt, if_neg (by rw [h]; decide), if_pos h]

theorem decodeAt_class_internal (h : w.extractLsb' 60 4 = 3) : decodeAt lvl w =
    decodeInternal (w.extractLsb' 52 8) (w.extractLsb' 50 2) (w.extractLsb' 32 18) (w.extractLsb' 0 32) := by
  rw [decodeAt, if_neg (by rw [h]; decide), if_neg (by rw [h]; decide), if_pos h]

/-- A word of no format decodes to nothing. -/
theorem decodeAt_class_other (h1 : w.extractLsb' 60 4 ≠ 1) (h2 : w.extractLsb' 60 4 ≠ 2)
    (h3 : w.extractLsb' 60 4 ≠ 3) : decodeAt lvl w = none := by
  rw [decodeAt, if_neg h1, if_neg h2, if_neg h3]

theorem validBus_iff : ValidBus w ↔ w.extractLsb' 60 4 = 1 ∧ w.extractLsb' 48 7 = 0 ∧
    (dirOf (w.extractLsb' 57 1)).dataOk (w.extractLsb' 0 16) = true := by rw [dataOk_dirOf, ValidBus]

/-- The number of a source is read off the word or off its argument. -/
theorem source_field : (w.extractLsb' 0 32).extractLsb' 0 3 = w.extractLsb' 0 3 := by
  ext k hk
  simp [BitVec.getElem_extractLsb']

theorem validInternal_iff : ValidInternal w ↔ w.extractLsb' 60 4 = 3 ∧ w.extractLsb' 32 18 = 0 ∧
    InTable (w.extractLsb' 52 8) (w.extractLsb' 50 2) (w.extractLsb' 0 32) := by
  rw [InTable, source_field, ValidInternal]

/-- The words that decode at a level. -/
theorem decodeAt_isSome : (decodeAt lvl w).isSome = true ↔
    (ValidBus w ∧ (lvl = .target → w.extractLsb' 55 2 ≠ 0)) ∨ ValidEvent w ∨ ValidInternal w := by
  rw [validBus_iff, validInternal_iff, ValidEvent]
  by_cases h1 : w.extractLsb' 60 4 = 1
  · rw [decodeAt_class_bus h1, decodeBus_isSome, h1]
    simp
  · by_cases h2 : w.extractLsb' 60 4 = 2
    · rw [decodeAt_class_event h2, decodeEvent_isSome, h2]
      simp
    · by_cases h3 : w.extractLsb' 60 4 = 3
      · rw [decodeAt_class_internal h3, decodeInternal_isSome, h3]
        simp
      · rw [decodeAt_class_other h1 h2 h3]
        refine iff_of_false nofun ?_
        rintro (⟨⟨h, -⟩, -⟩ | ⟨h, -⟩ | ⟨h, -⟩)
        · exact h1 h
        · exact h2 h
        · exact h3 h

end

/-- Settles O3: format by format, against the rows of the tables. -/
theorem decoderAcceptsExactlyTheTables : Obligations.DecoderAcceptsExactlyTheTables := by
  intro w
  have generic : (decodeAt .generic w).isSome = true ↔ ValidBus w ∨ ValidEvent w ∨ ValidInternal w := by
    simp [decodeAt_isSome]
  have target : (decodeAt .target w).isSome = true ↔
      (ValidBus w ∧ w.extractLsb' 55 2 ≠ 0) ∨ ValidEvent w ∨ ValidInternal w := by
    simp [decodeAt_isSome]
  refine ⟨generic, target, ?_⟩
  have accepted : (decodeAt .target w).isSome = true → (decodeAt .generic w).isSome = true := by
    rw [generic, target]
    exact Or.imp_left And.left
  unfold decode
  split
  · next i hi =>
    have some_generic : decodeAt .generic w ≠ none := Option.isSome_iff_ne_none.mp (accepted (by rw [hi]; rfl))
    split
    · rfl
    · exact ⟨nofun, fun h => absurd h some_generic⟩
  · rfl

end Sys2Proof.EncodingProofs
end

section
/-! A decoded word encoded again: of a register row the even address is written, of every other row the word itself
(30_encoding.md R126, R133; 20_memory.md R92). The two rows of a bus word. -/

namespace Sys2Proof.EncodingProofs
open Sys2Proof.Machine Sys2Proof.Laws Sys2Proof.StateProofs Sys2Proof.MemoryProofs

/- Elaborate these proofs one after the other. All at once, while the kernel still checks the text above, they can need
more threads than the check's limit on memory has room for. -/
set_option deprecated.oldSectionVars true

/-! ### Addresses from their parts -/

/-- An address is its window's number above its offset in the window. -/
theorem append_setWidth_eq {m n : Nat} (x : BitVec m) (a : BitVec (m + n)) (h : a.toNat / 2 ^ n = x.toNat) :
    x ++ a.setWidth n = a := by
  apply BitVec.eq_of_toNat_eq
  rw [toNat_append_eq, BitVec.toNat_setWidth, ← h, Nat.mul_comm]
  exact Nat.div_add_mod _ _

theorem PageEntry.target_injective {p q : PageEntry} (h : p.target = q.target) : p = q := by
  cases p <;> cases q <;> cases h <;> rfl

theorem offset_even (r : Reg) : r.offset.toNat % 2 = 0 := by
  cases r with
  | mbox n => revert n; decide
  | _ => rfl

/-- A register is found at its own offset and at the odd one after it only. -/
theorem offset_of_pageEntry {off : BitVec 10} {r : Reg} (h : pageEntry off = .reg r) :
    r.offset.toNat / 2 = off.toNat / 2 := by
  rw [pageEntry_def] at h
  split at h
  · exact nomatch h
  · split at h
    · next found =>
      cases h
      have same := List.find?_some found
      exact eq_of_beq same
    · exact nomatch h

/-- The address the encoder writes for a register is the even one that reaches it. -/
theorem pageAddr_of_targetOf {i : Initiator} {a : Long} {r : Reg} (h0 : 0x4000 ≤ a.toNat) (h1 : a.toNat < 0x4400)
    (h : targetOf i a = .reg r) : pageAddr r.offset = evenAddr a := by
  obtain ⟨page, off⟩ := targetOf_page i h0 h1
  have found : pageEntry (a.setWidth 10) = .reg r := PageEntry.target_injective (page.symm.trans h)
  have same := offset_of_pageEntry found
  have even := offset_even r
  apply BitVec.eq_of_toNat_eq
  rw [pageAddr_toNat, evenAddr_toNat]
  omega

section
variable {i : Initiator} {rw : Dir} {ln : Lanes} {a : Long} {d : Word}

/-- A read carries no data. -/
theorem dir_cases (h : rw.dataOk d = true) : (rw = .read ∧ d = 0) ∨ rw = .write := by
  cases rw
  · exact .inl ⟨rfl, eq_of_beq h⟩
  · exact .inr rfl

/-! ### The rows of format B encoded -/

theorem genericInstr_spells (h : rw.dataOk d = true) :
    Spells (genericInstr i rw ln a d) (busWord i rw ln.code a d) := by
  rcases dir_cases h with ⟨rfl, rfl⟩ | rfl <;> cases ln <;> exact ⟨rfl, rfl⟩

theorem readInstr_spells (r : Reg) : Spells (r.readInstr i ln) (regReadWord r i ln) := by
  cases r with
  | mbox n =>
    match n with
    | 0 | 1 | 2 | 3 | 4 | 5 | 6 | 7 => exact ⟨rfl, rfl⟩
  | _ => exact ⟨rfl, rfl⟩

theorem writeInstr_spells (r : Reg) : Spells (r.writeInstr i ln d) (regWriteWord r i ln d) := by
  cases r with
  | mbox n =>
    match n with
    | 0 | 1 | 2 | 3 | 4 | 5 | 6 | 7 => exact ⟨rfl, rfl⟩
  | _ => exact ⟨rfl, rfl⟩

/-- A register row is encoded with the even address. -/
theorem targetInstr_reg_spells (hd : rw.dataOk d = true) {r : Reg} (h0 : 0x4000 ≤ a.toNat) (h1 : a.toNat < 0x4400)
    (h : targetOf i a = .reg r) : Spells (targetInstr i rw ln a d) (busWord i rw ln.code (evenAddr a) d) := by
  rw [← pageAddr_of_targetOf h0 h1 h, targetInstr.eq_def, h]
  rcases dir_cases hd with ⟨rfl, rfl⟩ | rfl
  · exact readInstr_spells r
  · exact writeInstr_spells r

theorem busWord_congr {ul : BitVec 2} {x : Long} (h : x = a) : busWord i rw ul x d = busWord i rw ul a d := h ▸ rfl

/-- The row of level target that a bus word matches, by region: the row of a register is encoded with the even address,
any other with the address itself. -/
theorem targetInstr_spells (hd : rw.dataOk d = true) : Spells (targetInstr i rw ln a d) (busWord i rw ln.code a d) ∨
    ((∃ r, targetOf i a = .reg r) ∧ Spells (targetInstr i rw ln a d) (busWord i rw ln.code (evenAddr a) d)) := by
  rcases region_cases i a with ⟨h, c, rfl⟩ | ⟨h0, h1⟩ | ⟨h0, h1⟩ | ⟨h0, h1⟩ | ⟨h0, h1⟩ | h
  · have addr : (0 : BitVec 18) ++ a.setWidth 14 = a := append_setWidth_eq (m := 18) (n := 14) 0 a (by
      show a.toNat / 16384 = 0
      omega)
    rw [targetInstr.eq_def, targetOf_boot c h]
    rcases dir_cases hd with ⟨rfl, rfl⟩ | rfl <;> exact .inl ⟨rfl, busWord_congr addr⟩
  · rcases targetOf_registerPage i h0 h1 with ⟨r, hr⟩ | hreserved
    · exact .inr ⟨⟨r, hr⟩, targetInstr_reg_spells hd h0 (by omega) hr⟩
    · have addr : pageAddr (a.setWidth 10) = a := append_setWidth_eq (m := 22) (n := 10) 0x10 a (by
        show a.toNat / 1024 = 16
        omega)
      have page : pageEntry (a.setWidth 10) = .reserved :=
        PageEntry.target_injective ((targetOf_page i h0 (by omega)).1.symm.trans hreserved)
      have formed : reservedOffset (a.setWidth 10) = true := beq_iff_eq.mpr page
      rw [targetInstr.eq_def, hreserved]
      rcases dir_cases hd with ⟨rfl, rfl⟩ | rfl <;> exact .inl ⟨formed, busWord_congr addr⟩
  · have addr : (0x21 : BitVec 23) ++ a.setWidth 9 = a := append_setWidth_eq (m := 23) (n := 9) 0x21 a (by
      show a.toNat / 512 = 33
      omega)
    rw [targetInstr.eq_def, targetOf_paletteAt i h0 h1]
    rcases dir_cases hd with ⟨rfl, rfl⟩ | rfl <;> exact .inl ⟨rfl, busWord_congr addr⟩
  · have addr : (2 : BitVec 15) ++ a.setWidth 17 = a := append_setWidth_eq (m := 15) (n := 17) 2 a (by
      show a.toNat / 131072 = 2
      omega)
    rw [targetInstr.eq_def, targetOf_vramAt i h0 h1]
    rcases dir_cases hd with ⟨rfl, rfl⟩ | rfl <;> exact .inl ⟨rfl, busWord_congr addr⟩
  · rw [targetInstr.eq_def, targetOf_sdramAt i h0 h1]
    by_cases low : a.toNat < 0x80000
    · have addr : (3 : BitVec 15) ++ a.setWidth 17 = a := append_setWidth_eq (m := 15) (n := 17) 3 a (by
        show a.toNat / 131072 = 3
        omega)
      simp only [if_pos low]
      rcases dir_cases hd with ⟨rfl, rfl⟩ | rfl <;> exact .inl ⟨rfl, busWord_congr addr⟩
    · have addr : (4 : BitVec 15) ++ a.setWidth 17 = a := append_setWidth_eq (m := 15) (n := 17) 4 a (by
        show a.toNat / 131072 = 4
        omega)
      simp only [if_neg low]
      rcases dir_cases hd with ⟨rfl, rfl⟩ | rfl <;> exact .inl ⟨rfl, busWord_congr addr⟩
  · have formed : externalAddr i a = true := beq_iff_eq.mpr (targetOf_externalAt h)
    rw [targetInstr.eq_def, targetOf_externalAt h]
    rcases dir_cases hd with ⟨rfl, rfl⟩ | rfl <;> exact .inl ⟨formed, rfl⟩

/-- Bit 0 of the address is bit 16 of the word. -/
theorem busWord_evenAddr (ul : BitVec 2) :
    busWord i rw ul (evenAddr a) d = busWord i rw ul a d &&& 0xFFFFFFFFFFFEFFFF := by
  have mask : (0xFFFFFFFFFFFEFFFF : OpWord) =
      BitVec.allOnes 16 ++ (0xFFFFFFFE : Long) ++ BitVec.allOnes 16 := by decide
  have fields (x : BitVec 16) : x ++ evenAddr a ++ d =
      (x ++ a ++ d) &&& (BitVec.allOnes 16 ++ (0xFFFFFFFE : Long) ++ BitVec.allOnes 16) := by
    rw [BitVec.and_append, BitVec.and_append, BitVec.and_allOnes, BitVec.and_allOnes, evenAddr]
  rw [mask]
  exact fields _

end

/-- Settles O2: a word is put together again from its fields, row by row. -/
theorem decodedOperationEncodesBack : Obligations.DecodedOperationEncodesBack := by
  intro lvl w j h
  by_cases h1 : w.extractLsb' 60 4 = 1
  · rw [decodeAt_class_bus h1] at h
    obtain ⟨⟨hz, hd⟩, row⟩ := decodeBus_eq_some.mp h
    have word := busWord_of_fields h1 hz
    cases row with
    | generic hl =>
      rw [lanesOf_eq_some.mp hl] at word
      obtain ⟨formed, same⟩ := genericInstr_spells (i := initOf (w.extractLsb' 58 2)) hd
      exact ⟨formed, .inl (same.trans word)⟩
    | noLane hl =>
      rw [lanesOf_eq_none.mp hl] at word
      exact ⟨hd, .inl word⟩
    | target hl =>
      rw [lanesOf_eq_some.mp hl] at word
      rcases targetInstr_spells hd with ⟨formed, same⟩ | ⟨hreg, formed, even⟩
      · exact ⟨formed, .inl (same.trans word)⟩
      · exact ⟨formed, .inr ⟨rfl, h1, hreg, even.trans (by rw [busWord_evenAddr, word])⟩⟩
  · by_cases h2 : w.extractLsb' 60 4 = 2
    · rw [decodeAt_class_event h2] at h
      obtain ⟨hz, row⟩ := decodeEvent_eq_some.mp h
      obtain ⟨formed, same⟩ := row.spells
      exact ⟨formed, .inl (same.trans (eventWord_of_fields h2 hz))⟩
    · by_cases h3 : w.extractLsb' 60 4 = 3
      · rw [decodeAt_class_internal h3] at h
        obtain ⟨hz, row⟩ := decodeInternal_eq_some.mp h
        obtain ⟨formed, same⟩ := row.spells
        exact ⟨formed, .inl (same.trans (internalWord_of_fields h3 hz))⟩
      · rw [decodeAt_class_other h1 h2 h3] at h
        exact nomatch h

/-- The generic row and the register or window row of one transaction have the same effect. -/
theorem exec_genericInstr_eq (i : Initiator) (rw : Dir) (ln : Lanes) (a : Long) (d : Word) (s : State) :
    exec (genericInstr i rw ln a d) s = exec (targetInstr i rw ln a d) s := by
  cases rw
  · rw [genericInstr_read, exec_readOn, exec_targetInstr_read]
  · rw [exec_targetInstr_write]
    exact exec_writeOn ln i a d s

/-- Settles O5: a word of formats E and I has one row, at either level. -/
theorem genericAndTargetRowsAgree : Obligations.GenericAndTargetRowsAgree := by
  intro w g t s hg ht
  by_cases h1 : w.extractLsb' 60 4 = 1
  · rw [decodeAt_class_bus h1, decodeBus_eq_some] at hg ht
    obtain ⟨-, rowg⟩ := hg
    obtain ⟨-, rowt⟩ := ht
    cases rowt with
    | target hl =>
      cases rowg with
      | generic hl' =>
        obtain rfl := Option.some.inj (hl.symm.trans hl')
        exact exec_genericInstr_eq _ _ _ _ _ s
      | noLane hl' => exact nomatch hl.symm.trans hl'
  · have same : decodeAt .generic w = decodeAt .target w := by rw [decodeAt, decodeAt, if_neg h1, if_neg h1]
    rw [Option.some.inj (hg.symm.trans (same.trans ht))]

end Sys2Proof.EncodingProofs
end

section
/-! Known words, and the one operation that ends in a fault (60_exceptions.md R360). -/

namespace Sys2Proof.EncodingProofs
open Sys2Proof.Machine Sys2Proof.Laws Sys2Proof.StateProofs

/- Elaborate these proofs one after the other. All at once, while the kernel still checks the text above, they can need
more threads than the check's limit on memory has room for. -/
set_option deprecated.oldSectionVars true

/-- Settles O4. -/
theorem knownWordsDecode : Obligations.KnownWordsDecode := by
  unfold Obligations.KnownWordsDecode
  decide

/-! ### What never faults -/

/-- The outcome is no fault. -/
def NoFault (o : Host.Outcome State Fault Refusal) : Prop := ∀ f, o ≠ .fault f

theorem NoFault.next (s : State) : NoFault (.next s) := nofun

theorem NoFault.refused (r : Refusal) : NoFault (.refused r) := nofun

theorem NoFault.whenEnabled (ok : Bool) (s : State) : NoFault (whenEnabled ok s) := fun _ => whenEnabled_fault

theorem NoFault.transactRead (i : Initiator) (l : Lanes) (g : Target) (s : State) : NoFault (transactRead i l g s) :=
  .whenEnabled _ _

theorem NoFault.transactWrite (i : Initiator) (l : Lanes) (g : Target) (d : Word) (s : State) :
    NoFault (transactWrite i l g d s) := .whenEnabled _ _

theorem NoFault.syncResolve (t : Agent) (s : State) : NoFault (execSyncResolve t s) := by
  unfold execSyncResolve
  split
  · exact .whenEnabled _ _
  · exact .refused _

/-- Every operation but the transaction with no lane is performed or refused. -/
theorem noFault_exec {j : Instr} (hj : ∀ i rw a d, j ≠ .busNoLane i rw a d) (s : State) : NoFault (exec j s) := by
  cases j
  case busNoLane i rw a d => exact absurd rfl (hj i rw a d)
  case rd16 | rd8u | rd8l | irqenRd | irqstatRd | irqackRd | adapterRd | hperiodRd | hcounterRd | cmdreqRd | mbox0Rd
    | mbox1Rd | mbox2Rd | mbox3Rd | mbox4Rd | mbox5Rd | mbox6Rd | mbox7Rd | pwmctlRd | pwmcycRd | pwmlRd | pwmrRd
    | dreqctlRd | dreqsrchRd | dreqsrclRd | dreqdsthRd | dreqdstlRd | dreqlenRd | vdpmodeRd | vdpshiftRd | aflenRd
    | afaddrRd | afdataRd | fbctlRd | bootromRd | paletteRd | vramRd | sdramLoRd | sdramHiRd | reservedRd
    | externalRd =>
    unfold exec
    exact .transactRead _ _ _ s
  case wr16 | wr8u | wr8l | irqenWr | irqstatWr | irqackWr | adapterWr | hperiodWr | hcounterWr | cmdreqWr | mbox0Wr
    | mbox1Wr | mbox2Wr | mbox3Wr | mbox4Wr | mbox5Wr | mbox6Wr | mbox7Wr | pwmctlWr | pwmcycWr | pwmlWr | pwmrWr
    | dreqctlWr | dreqsrchWr | dreqsrclWr | dreqdsthWr | dreqdstlWr | dreqlenWr | vdpmodeWr | vdpshiftWr | aflenWr
    | afaddrWr | afdataWr | fbctlWr | bootromWr | paletteWr | vramWr | sdramLoWr | sdramHiWr | reservedWr
    | externalWr => exact .transactWrite _ _ _ _ s
  case power | restart | unload | vblank | hblank | scanline | hostAdvance | hostSync | coreStepM | coreStepS
    | audioStep | dreqStep | autofillStep => exact .whenEnabled _ _
  case syncResolve t => exact .syncResolve t s
  case pwmTimerStep | sampleTick | fifoWrite | fifoRead | fifoDrain | irqRaise | irqQueryM | irqQueryS | irqDispatchM
    | irqDispatchS | latchCommit | fbCommit | selectFb => exact .next _

/-- A bus word that selects no lane has the generic row only. -/
theorem decode_noLane {w : OpWord} (hw : ValidBus w) (hul : w.extractLsb' 55 2 = 0) :
    decode w = some (.busNoLane (initOf (w.extractLsb' 58 2)) (dirOf (w.extractLsb' 57 1)) (w.extractLsb' 16 32)
      (w.extractLsb' 0 16)) := by
  obtain ⟨h1, hok⟩ := validBus_iff.mp hw
  have generic : decodeAt .generic w = some (.busNoLane (initOf (w.extractLsb' 58 2)) (dirOf (w.extractLsb' 57 1))
      (w.extractLsb' 16 32) (w.extractLsb' 0 16)) :=
    (decodeAt_class_bus h1).trans (decodeBus_eq_some.mpr ⟨hok, .noLane (lanesOf_eq_none.mpr hul)⟩)
  have target : decodeAt .target w = none := by
    rw [← Option.not_isSome_iff_eq_none, decodeAt_class_bus h1, decodeBus_isSome]
    exact fun accepted => accepted.2 rfl hul
  rw [decode, target, generic]

/-- Settles O8: the word is tested wherever it stands, and every other meaning ends in `.next` or `.refused`. -/
theorem noLaneTransactionFaults : Obligations.NoLaneTransactionFaults := by
  refine ⟨fun w hw hul => ⟨decode_noLane hw hul, fun s rest hidle hops => ?_⟩, fun _ _ _ _ _ => rfl, fun j s f h => ?_⟩
  · have noStep : internalStep s = none := (internalStep_eq_none s).mpr (by tauto)
    exact step_performs ⟨noStep, hops⟩ (decode_noLane hw hul) (mayPerform_anywhere s)
  · by_cases hj : ∃ i rw a d, j = .busNoLane i rw a d
    · obtain ⟨i, rw, a, d, rfl⟩ := hj
      exact ⟨i, rw, a, d, rfl, (Host.Outcome.fault.inj h).symm⟩
    · exact absurd h (noFault_exec (by simpa using hj) s f)

end Sys2Proof.EncodingProofs
end

section
/-! # The family of the scheduler (spec/40_scheduler.md)

What a `CORE_STEP` accounts to its core, and what it leaves alone (R150 to R156, R164). -/

namespace Sys2Proof.SchedulerProofs
open Sys2Proof.Machine Sys2Proof.Laws Sys2Proof.StateProofs Sys2Proof.MemoryProofs

/- Elaborate these proofs one after the other. All at once, while the kernel still checks the text above, they can need
more threads than the check's limit on memory has room for. -/
set_option deprecated.oldSectionVars true

/-! ### The accounting of a core's step -/

section
variable {c : CoreId} {n : Nat} {u t : State}

/-- The accounting touches the clocks, the queues and the cores' counters only. -/
theorem accounts_frame (h : Accounts c n u t) :
    t = { u with clk := t.clk, cores := t.cores, pend := t.pend, result := .none } := by
  obtain rfl := h
  rfl

theorem accounts_alive (h : Accounts c n u t) (x : Agent) : t.alive x = u.alive x := by
  obtain rfl := h
  cases x <;> rfl

theorem accounts_clk (h : Accounts c n u t) : t.clk.get c.agent = u.clk.get c.agent + BitVec.ofNat 64 n := by
  obtain rfl := h
  exact PerAgent.get_set_same _ _ _

theorem accounts_clk_other (h : Accounts c n u t) {x : Agent} (hx : x ≠ c.agent) : t.clk.get x = u.clk.get x := by
  obtain rfl := h
  exact PerAgent.get_set_other _ _ _ _ hx

theorem accounts_pend_other (h : Accounts c n u t) {x : Agent} (hx : x ≠ c.agent) : t.pend.get x = u.pend.get x := by
  obtain rfl := h
  exact PerAgent.get_set_other _ _ _ _ hx

theorem accounts_core_other (h : Accounts c n u t) {x : CoreId} (hx : x ≠ c) : t.cores.get x = u.cores.get x := by
  obtain rfl := h
  exact PerCore.get_set_other _ _ _ _ hx

/-- The accounting compares the thresholds and leaves them. -/
theorem accounts_thresholds (h : Accounts c n u t) (x : CoreId) :
    (t.cores.get x).minCyclesBetweenSh2Syncs = (u.cores.get x).minCyclesBetweenSh2Syncs ∧
      (t.cores.get x).minCyclesBetweenM68kSyncs = (u.cores.get x).minCyclesBetweenM68kSyncs := by
  obtain rfl := h
  cases c <;> cases x <;> exact ⟨rfl, rfl⟩

end

/-- A held or a gated body is one cycle that changes nothing (40_scheduler.md R153, R154). -/
theorem coreBody_idle {s : State} (h : s.io.adapterReset = true ∨ s.dreq.active = true) (c : CoreId) :
    coreBody c s = (1, s) := by
  unfold coreBody
  split
  · rfl
  · next held => rw [if_pos (h.resolve_left held)]

/-- A `CORE_STEP` that completes is its body, accounted. -/
theorem accounts_of_exec {c : CoreId} {s t : State} (h : exec (coreStepOf c) s = .next t) :
    Accounts c (coreBody c s).1 (coreBody c s).2 t := by
  rw [exec_coreStepOf, whenEnabled_next] at h
  obtain ⟨-, rfl⟩ := h
  exact accounts_syncCheck c _ _

/-- Settles O46: the body is idle, the rest is the accounting. -/
theorem heldOrGatedCoreOnlyLetsTimePass : Obligations.HeldOrGatedCoreOnlyLetsTimePass := by
  intro c s hturn hidle
  refine ⟨_, exec_coreStepOf_turn hturn, ?_⟩
  rw [coreBody_idle hidle]
  exact accounts_syncCheck c 1 s

/-- Settles O49: the body is made of bus transactions, which `coreBody_keeps` bounds; the accounting touches the core's
own clock, queue and deficits. -/
theorem coreStepLeavesTheOtherAgents : Obligations.CoreStepLeavesTheOtherAgents := by
  intro c s t h
  have body := coreBody_keeps c s
  have accounts := accounts_of_exec h
  have frame := accounts_frame accounts
  have other := accounts_core_other accounts (CoreId.other_ne c)
  exact ⟨(congrArg State.token frame).trans body.token,
    fun x => (accounts_alive accounts x).trans (body.alive x),
    fun x hx => ⟨(accounts_clk_other accounts hx).trans (congrArg (·.get x) body.clk),
      (accounts_pend_other accounts hx).trans (congrArg (·.get x) body.pend)⟩,
    (congrArg (·.cyclesUntilSh2Sync) other).trans (body.sh2 _),
    (congrArg (·.cyclesUntilM68kSync) other).trans (body.m68k _),
    fun x => (accounts_thresholds accounts x).imp (·.trans (body.minSh2 x)) (·.trans (body.minM68k x)),
    (congrArg (·.vdp.latch) frame).trans body.latch,
    (congrArg State.audioOut frame).trans body.audioOut,
    (congrArg State.ops frame).trans body.ops,
    (congrArg State.pixels frame).trans body.pixels,
    (congrArg State.powerOns frame).trans body.powerOns,
    coreBody_cycles c s,
    (accounts_clk accounts).trans (by rw [body.clk]),
    fun hidle => by rw [coreBody_idle hidle],
    (congrArg State.inside frame).trans body.inside⟩

end Sys2Proof.SchedulerProofs
end

section
/-! The parts of `AUDIO_STEP` performed by themselves (40_scheduler.md R158). -/

namespace Sys2Proof.SchedulerProofs
open Sys2Proof.Machine Sys2Proof.Laws Sys2Proof.StateProofs Sys2Proof.MemoryProofs

/- Elaborate these proofs one after the other. All at once, while the kernel still checks the text above, they can need
more threads than the check's limit on memory has room for. -/
set_option deprecated.oldSectionVars true

/-! ### What ignores the last result -/

theorem dreqThrough_setResult (w : Word) (s : State) (r : OpResult) :
    dreqThrough w (setResult s r) = ((dreqThrough w s).1, setResult (dreqThrough w s).2 r) := by
  unfold dreqThrough
  rw [show (setResult s r).dreq.fifo = s.dreq.fifo from rfl]
  cases s.dreq.fifo <;> rfl

theorem writeBack_ignores (w : State → Nat) (d : State → Word) (hw : ∀ s r, w (setResult s r) = w s)
    (hd : ∀ s r, d (setResult s r) = d s) : IgnoresResult fun s => writeWord s (backBank s) (w s) .word (d s) := by
  intro s r
  dsimp only
  rw [hw, hd]
  exact writeWord_ignores (backBank s) (w s) .word (d s) s r

theorem dreqStore_ignores (v : Word) : IgnoresResult (dreqStore v) := by
  refine .ite (fun _ _ => .rfl) (writeBack_ignores _ _ (fun _ _ => rfl) fun _ _ => rfl) fun s r => ?_
  exact congrArg Prod.snd (busWrite_setResult .dreq .word (dreqAddr s.dreq.target) v s r)

theorem dreqAdvance_ignores : IgnoresResult dreqAdvance :=
  .ite (fun _ _ => .rfl) (fbCommit_ignores.comp fun _ _ => rfl) fun _ _ => rfl

theorem dreqStep_ignores : IgnoresResult dreqStep := by
  intro s r
  unfold dreqStep
  rw [show (setResult s r).dreq.source = s.dreq.source from rfl, busRead_setResult]
  dsimp only
  rw [dreqThrough_setResult, dreqStore_ignores, dreqAdvance_ignores]

theorem autofillAdvance_ignores : IgnoresResult autofillAdvance :=
  .ite (fun _ _ => .rfl) (fbCommit_ignores.comp fun _ _ => rfl) fun _ _ => rfl

theorem autofillStep_ignores : IgnoresResult autofillStep :=
  autofillAdvance_ignores.comp (writeBack_ignores _ _ (fun _ _ => rfl) fun _ _ => rfl)

/-! ### The parts -/

/-- `DREQ_STEP` as an operation, after one that returned nothing. -/
theorem exec_dreqStep {s : State} (h : s.dreq.active = true) :
    exec .dreqStep (setResult s .none) = .next (setResult (dreqStep s) .none) := by
  refine whenEnabled_next.mpr ⟨h, ?_⟩
  rw [dreqStep_ignores]
  rfl

/-- `AUTOFILL_STEP` as an operation, after one that returned nothing. -/
theorem exec_autofillStep {s : State} (h : s.vdp.autofillActive = true) :
    exec .autofillStep (setResult s .none) = .next (setResult (autofillStep s) .none) := by
  refine whenEnabled_next.mpr ⟨h, ?_⟩
  rw [autofillStep_ignores]
  rfl

/-- Settles O51: each part ignores what the one before it returned, so performed by themselves they are the body of
`AUDIO_STEP`. -/
theorem audioStepRunsItsThreeParts : Obligations.AudioStepRunsItsThreeParts := by
  intro s hturn
  refine ⟨setResult (pwmTimerStep s) .none, setResult (afterTransfer s) .none, setResult (audioBody s) .none, rfl,
    fun (active : (pwmTimerStep s).dreq.active = true) => ?_,
    fun (idle : (pwmTimerStep s).dreq.active = false) => ?_,
    fun (active : (afterTransfer s).vdp.autofillActive = true) => ?_,
    fun (idle : (afterTransfer s).vdp.autofillActive = false) => ?_,
    whenEnabled_next.mpr ⟨(audioEnabled_iff s).mpr hturn, rfl⟩⟩
  · rw [afterTransfer, if_pos active]
    exact exec_dreqStep active
  · rw [afterTransfer, if_neg (Bool.eq_false_iff.mp idle)]
  · rw [audioBody_eq, if_pos active]
    exact exec_autofillStep active
  · rw [audioBody_eq, if_neg (Bool.eq_false_iff.mp idle)]

end Sys2Proof.SchedulerProofs
end

section
/-! The scheduler's events (40_scheduler.md R160, R161; 70_reset_and_hazards.md R395, R396), and which operation a step is
(40_scheduler.md R159, R162; 30_encoding.md R133). -/

namespace Sys2Proof.SchedulerProofs
open Sys2Proof.Machine Sys2Proof.Laws Sys2Proof.StateProofs Sys2Proof.MemoryProofs Sys2Proof.EncodingProofs

/- Elaborate these proofs one after the other. All at once, while the kernel still checks the text above, they can need
more threads than the check's limit on memory has room for. -/
set_option deprecated.oldSectionVars true

/-! ### The scheduler's events -/

theorem exec_hostAdvance {s : State} (h : HostTurn s) (n : BitVec 32) :
    exec (.hostAdvance n) s = .next (setResult (tick .h n.toNat s) .none) := hostEvent_eq s _ h

theorem exec_hostSync {s : State} (h : HostTurn s) :
    exec .hostSync s = .next (setResult (setPend s .h [.m, .s, .a]) .none) := hostEvent_eq s _ h

theorem exec_restart {s : State} (h : HostTurn s) :
    exec .restart s = .next (setResult (restart s) .none) := hostEvent_eq s _ h

theorem exec_unload {s : State} (h : HostTurn s) :
    exec .unload s = .next (setResult (unload s) .none) := hostEvent_eq s _ h

/-- The host's clock counts its own cycles (40_scheduler.md R160; the scale is 1). -/
theorem tick_host (n : Nat) (s : State) :
    tick .h n s = { s with clk := { s.clk with h := s.clk.h + BitVec.ofNat 64 n } } := by
  unfold tick Config.scale
  rw [Nat.mul_one]
  rfl

/-- Settles O52. -/
theorem hostSchedulerEvents : Obligations.HostSchedulerEvents := by
  refine ⟨fun s n hturn => ⟨?_, exec_hostSync hturn⟩, fun s hturn => ⟨fun disabled => ?_, fun enabled => ?_,
    exec_unload hturn⟩⟩
  · rw [exec_hostAdvance hturn, tick_host]
    rfl
  · rw [exec_restart hturn, restart, if_neg (Bool.eq_false_iff.mp disabled)]
    rfl
  · rw [exec_restart hturn, restart, if_pos enabled]
    rfl

/-! ### Which operation a step is -/

/-- Two rows of one word: performed at the same places, with the same effect. -/
def SameRow (i j : Instr) : Prop := instrPlace i = instrPlace j ∧ ∀ s, exec i s = exec j s

theorem SameRow.refl (i : Instr) : SameRow i i := ⟨rfl, fun _ => rfl⟩

theorem SameRow.symm {i j : Instr} (h : SameRow i j) : SameRow j i := ⟨h.1.symm, fun s => (h.2 s).symm⟩

theorem SameRow.trans {i j k : Instr} (h : SameRow i j) (h' : SameRow j k) : SameRow i k :=
  ⟨h.1.trans h'.1, fun s => (h.2 s).trans (h'.2 s)⟩

/-- A generic transaction stands where its initiator's transactions stand. -/
theorem instrPlace_genericInstr (i : Initiator) (rw : Dir) (ln : Lanes) (a : Long) (d : Word) :
    instrPlace (genericInstr i rw ln a d) = initiatorPlace i := by
  cases rw
  · rw [genericInstr_read, instrPlace_readOn]
  · exact instrPlace_writeOn ln i a d

/-- The generic row of a transaction and its register or window row. -/
theorem sameRow_transaction (i : Initiator) (rw : Dir) (ln : Lanes) (a : Long) (d : Word) :
    SameRow (genericInstr i rw ln a d) (targetInstr i rw ln a d) :=
  ⟨(instrPlace_genericInstr i rw ln a d).trans (instrPlace_targetInstr i rw ln a d).symm,
    exec_genericInstr_eq i rw ln a d⟩

section
variable {i : Initiator} {rw : Dir} {a : Long} {d : Word} {l : Level} {ul : BitVec 2} {j : Instr}

/-- With a lane selected, a row of format B is the generic transaction on it. -/
theorem sameRow_of_lane (row : BusRow i rw a d l ul j) {ln : Lanes} (hl : lanesOf ul = some ln) :
    SameRow (genericInstr i rw ln a d) j := by
  cases row with
  | generic hl' =>
    obtain rfl := Option.some.inj (hl.symm.trans hl')
    exact .refl _
  | target hl' =>
    obtain rfl := Option.some.inj (hl.symm.trans hl')
    exact sameRow_transaction _ _ _ _ _
  | noLane hl' => exact nomatch hl.symm.trans hl'

/-- With no lane selected there is one row. -/
theorem eq_of_noLane (row : BusRow i rw a d l ul j) (hl : lanesOf ul = none) : j = .busNoLane i rw a d := by
  cases row with
  | generic hl' | target hl' => exact nomatch hl.symm.trans hl'
  | noLane _ => rfl

end

/-- The rows a word decodes to, at whatever level, are the same. -/
theorem sameRow_of_decodeAt {w : OpWord} {l l' : Level} {i j : Instr} (hi : decodeAt l w = some i)
    (hj : decodeAt l' w = some j) : SameRow i j := by
  by_cases h1 : w.extractLsb' 60 4 = 1
  · rw [decodeAt_class_bus h1, decodeBus_eq_some] at hi hj
    obtain ⟨-, rowi⟩ := hi
    obtain ⟨-, rowj⟩ := hj
    rcases hl : lanesOf (w.extractLsb' 55 2) with _ | ln
    · rw [eq_of_noLane rowi hl, eq_of_noLane rowj hl]
      exact .refl _
    · exact (sameRow_of_lane rowi hl).symm.trans (sameRow_of_lane rowj hl)
  · have same : decodeAt l w = decodeAt l' w := by rw [decodeAt, decodeAt, if_neg h1, if_neg h1]
    rw [Option.some.inj (hi.symm.trans (same.trans hj))]
    exact .refl j

/-- The preferred decoder answers the row of one of the levels. -/
theorem decode_level (w : OpWord) : ∃ l, decode w = decodeAt l w := by
  unfold decode
  split
  · next i hi =>
    split
    · exact ⟨.generic, rfl⟩
    · exact ⟨.target, hi.symm⟩
  · exact ⟨.generic, rfl⟩

/-- A word with a row at some level is taken as a row the same as it. -/
theorem decode_sameRow {w : OpWord} {l : Level} {i : Instr} (h : decodeAt l w = some i) :
    ∃ j, decode w = some j ∧ SameRow j i := by
  obtain ⟨generic, target, refused⟩ := decoderAcceptsExactlyTheTables w
  have accepted : (decodeAt .generic w).isSome = true := by
    cases l with
    | generic => rw [h]; rfl
    | target => exact generic.mpr ((target.mp (by rw [h]; rfl)).imp_left And.left)
  obtain ⟨j, hj⟩ := Option.ne_none_iff_exists'.mp (mt refused.mp (Option.isSome_iff_ne_none.mp accepted))
  obtain ⟨l', hl'⟩ := decode_level w
  exact ⟨j, hj, sameRow_of_decodeAt (hl'.symm.trans hj) h⟩

/-- The enabled internal step is the step (40_scheduler.md R159). -/
theorem step_internal {s : State} {i : Instr} (h : internalStep s = some i) : step s = exec i s := by
  rw [step, h]

/-- Settles O6. -/
theorem stepRunsTheDecodedOperation : Obligations.StepRunsTheDecodedOperation := by
  refine ⟨fun s h => ?_, fun s hin halive => ?_⟩
  · have noStep : internalStep s = none := (internalStep_eq_none s).mpr (by tauto)
    refine ⟨fun w rest hops => ⟨fun l i hi => ?_, fun hd => ?_⟩, fun hops => ?_⟩
    · obtain ⟨j, hj, place, effect⟩ := decode_sameRow hi
      rw [← place, ← effect]
      exact ⟨step_performs ⟨noStep, hops⟩ hj, fun hm => step_refused ⟨noStep, hops⟩ hj (Bool.eq_false_iff.mp hm)⟩
    · simp only [step, noStep, hostStep, hops, hd]
    · simp only [step, noStep, hostStep, hops]
  · refine ⟨fun p rest hp => step_internal ?_, fun hp ht => step_internal ?_, fun hp ht => step_internal ?_,
      fun hp ht => step_internal ?_⟩
    · rw [internalStep, hin, halive, hp]
      rfl
    all_goals
      rw [internalStep, hin, halive, hp, ht]
      rfl

end Sys2Proof.SchedulerProofs
end
section
/-! The bound on how far a thread runs ahead of a partner it need not check (40_scheduler.md R163). A step moves the
clock, the queue and the deficits of one thread at most; of every other thread the bound is kept because no partner's
clock goes back. -/

namespace Sys2Proof.SchedulerProofs
open Sys2Proof.Machine Sys2Proof.Laws Sys2Proof.StateProofs Sys2Proof.MemoryProofs

/- Elaborate these proofs one after the other. All at once, while the kernel still checks the text above, they can need
more threads than the check's limit on memory has room for. -/
set_option deprecated.oldSectionVars true

/-! ### The bound, thread by thread -/

/-- The deficit of a core in the tier of this partner: the host is the M68K tier (40_scheduler.md R156). -/
def coreDeficit (k : CoreState) (p : Agent) : Nat :=
  if p = .h then k.cyclesUntilM68kSync.toNat else k.cyclesUntilSh2Sync.toNat

/-- How far an agent may be ahead of a partner it need not check: a core by its deficit, another by nothing. -/
def deficitTo (s : State) (q p : Agent) : Nat :=
  match q with
  | .m => coreDeficit s.cores.m p
  | .s => coreDeficit s.cores.s p
  | .h | .a => 0

theorem deficitTo_core (s : State) (c : CoreId) (p : Agent) :
    deficitTo s c.agent p = coreDeficit (s.cores.get c) p := by cases c <;> rfl

/-- The skew bound of one thread. -/
def Bounded (s : State) (q : Agent) : Prop := ∀ p, p ≠ q → Within s q p (deficitTo s q p)

theorem agent_cases (q : Agent) : q = .h ∨ q = .a ∨ ∃ c : CoreId, q = c.agent := by
  cases q
  · exact .inl rfl
  · exact .inr (.inr ⟨.m, rfl⟩)
  · exact .inr (.inr ⟨.s, rfl⟩)
  · exact .inr (.inl rfl)

theorem partner_cases {c : CoreId} {p : Agent} (h : p ≠ c.agent) : p = .h ∨ p = .a ∨ p = c.other.agent := by
  obtain rfl | rfl | ⟨x, rfl⟩ := agent_cases p
  · exact .inl rfl
  · exact .inr (.inl rfl)
  · refine .inr (.inr ?_)
    cases c <;> cases x
    case m.m | s.s => exact absurd rfl h
    all_goals rfl

theorem other_agent_ne (c : CoreId) : c.other.agent ≠ c.agent := by cases c <;> exact nofun

/-- The skew bound is the bound of each thread. -/
theorem skewInv_iff (s : State) : SkewInv s ↔ ∀ q, q ≠ .h → Bounded s q := by
  constructor
  · intro h q hq p hp
    obtain rfl | rfl | ⟨c, rfl⟩ := agent_cases q
    · exact absurd rfl hq
    · exact h.engine p hp
    · rw [deficitTo_core]
      obtain rfl | rfl | rfl := partner_cases hp
      · exact h.host c
      · exact h.audio c
      · rw [coreDeficit, if_neg (CoreId.agent_ne_h _)]
        exact h.core c
  · intro h
    have core (c : CoreId) {p : Agent} (hp : p ≠ c.agent) : Within s c.agent p (coreDeficit (s.cores.get c) p) :=
      deficitTo_core s c p ▸ h c.agent (CoreId.agent_ne_h c) p hp
    refine ⟨fun c => ?_, fun c => core c (CoreId.agent_ne_a c).symm, fun c => core c (CoreId.agent_ne_h c).symm,
      fun p hp => h .a nofun p hp⟩
    have bound := core c (other_agent_ne c)
    rwa [coreDeficit, if_neg (CoreId.agent_ne_h _)] at bound

/-! ### A thread that does not move -/

/-- The agent's clock, queue and deficits are the same, and so is the existence of every agent. -/
structure Unmoved (q : Agent) (s t : State) : Prop where
  clk : t.clk.get q = s.clk.get q
  pend : t.pend.get q = s.pend.get q
  alive : ∀ x, t.alive x = s.alive x
  deficit : ∀ p, deficitTo t q p = deficitTo s q p

section
variable {q : Agent} {s t u : State}

theorem Unmoved.trans (a : Unmoved q s t) (b : Unmoved q t u) : Unmoved q s u :=
  ⟨b.clk.trans a.clk, b.pend.trans a.pend, fun x => (b.alive x).trans (a.alive x),
    fun p => (b.deficit p).trans (a.deficit p)⟩

theorem Unmoved.of_busKeeps (k : BusKeeps s t) (q : Agent) : Unmoved q s t where
  clk := by rw [k.clk]
  pend := by rw [k.pend]
  alive := k.alive
  deficit p := by
    obtain rfl | rfl | ⟨c, rfl⟩ := agent_cases q
    · rfl
    · rfl
    · rw [deficitTo_core, deficitTo_core, coreDeficit, coreDeficit, k.m68k, k.sh2]

/-- An operation that changes none of the fields the bound speaks of. -/
theorem Unmoved.of_same (h : t = { s with
    token := t.token, mem := t.mem, fbSel := t.fbSel, vdp := t.vdp, pwm := t.pwm, audioOut := t.audioOut,
    dreq := t.dreq, io := t.io, mailbox := t.mailbox, extLog := t.extLog, ops := t.ops, result := t.result,
    pixels := t.pixels }) (q : Agent) : Unmoved q s t := by
  rw [h]
  exact ⟨rfl, rfl, fun x => by cases x <;> rfl, fun _ => rfl⟩

/-- The bound of a thread that does not move, where no clock goes back. -/
theorem Bounded.of_unmoved (h : Bounded s q) (k : Unmoved q s t) (rise : ClocksRise s t) : Bounded t q := by
  intro p hp hq ha
  rw [k.alive] at hq ha
  rw [k.pend, k.clk, k.deficit]
  exact (h p hp hq ha).imp_right fun bound => bound.trans (Nat.add_le_add_right (rise p) _)

/-- The bound after an operation that moves some threads, whose bound holds. -/
theorem skewInv_of_threads (h : SkewInv s) (rise : ClocksRise s t)
    (k : ∀ q, q ≠ .h → Unmoved q s t ∨ Bounded t q) : SkewInv t :=
  (skewInv_iff t).mpr fun q hq => (k q hq).elim (((skewInv_iff s).mp h q hq).of_unmoved · rise) id

theorem skewInv_of_unmoved (h : SkewInv s) (rise : ClocksRise s t) (k : ∀ q, q ≠ .h → Unmoved q s t) : SkewInv t :=
  skewInv_of_threads h rise fun q hq => .inl (k q hq)

end

/-! ### Operations that move no thread -/

theorem sampleTick_unmoved (s : State) (q : Agent) : Unmoved q s (sampleTick s) := by
  obtain ⟨dc, pair, e⟩ := sampleTick_eq s
  have ticked : Unmoved q s (afterTick s dc pair) := .of_same rfl q
  rw [e]
  exact iteInduction (motive := Unmoved q s)
    (fun _ => ticked.trans (.of_busKeeps (irqRaiseBoth_keeps _ _) q)) fun _ => ticked

theorem pwmTimerStep_unmoved (s : State) (q : Agent) : Unmoved q s (pwmTimerStep s) := by
  have counted (p : Pwm) : Unmoved q s { s with pwm := p } := .of_same rfl q
  exact iteInduction (motive := Unmoved q s) (fun _ => (counted _).trans (sampleTick_unmoved _ q)) fun _ => counted _

theorem audioBody_unmoved (s : State) (q : Agent) : Unmoved q s (audioBody s) :=
  audioBody_induction (pwmTimerStep_unmoved s q)
    (fun _ => (pwmTimerStep_unmoved s q).trans (.of_busKeeps (dreqStep_keeps _) q))
    fun ht _ => ht.trans (.of_busKeeps (autofillStep_keeps _) q)

theorem vblankEvent_unmoved (b : Bool) (s : State) (q : Agent) : Unmoved q s (vblankEvent b s) := by
  have level (v : Vdp) : Unmoved q s { s with vdp := v } := .of_same rfl q
  exact iteInduction (motive := Unmoved q s)
    (fun _ => (level _).trans ((Unmoved.of_busKeeps (fbCommit_keeps _) q).trans
      (.of_busKeeps (irqRaiseBoth_keeps _ _) q))) fun _ => level _

theorem hblankEvent_unmoved (b : Bool) (s : State) (q : Agent) : Unmoved q s (hblankEvent b s) := by
  have level (io : Io) : Unmoved q s { s with vdp := { s.vdp with hblank := b }, io := io } := .of_same rfl q
  exact iteInduction (motive := Unmoved q s)
    (fun _ => iteInduction (motive := Unmoved q s)
      (fun _ => (level _).trans (.of_busKeeps (irqRaiseBoth_keeps _ _) q)) fun _ => level _) fun _ => level _

/-! ### Operations that move one thread -/

/-- The other threads while the clock of one moves. -/
theorem tick_unmoved {x q : Agent} (hq : q ≠ x) (n : Nat) (s : State) : Unmoved q s (tick x n s) :=
  ⟨PerAgent.get_set_other _ _ _ _ hq, rfl, fun y => by cases y <;> rfl, fun _ => rfl⟩

theorem setPend_alive (s : State) (x : Agent) (l : List Agent) (y : Agent) :
    (setPend s x l).alive y = s.alive y := by cases y <;> rfl

/-- The other threads while the queue of one is set. -/
theorem setPend_unmoved {x q : Agent} (hq : q ≠ x) (l : List Agent) (s : State) : Unmoved q s (setPend s x l) :=
  ⟨rfl, PerAgent.get_set_other _ _ _ _ hq, setPend_alive s x l, fun _ => rfl⟩

section
variable {c : CoreId} {n : Nat} {u t : State}

theorem accounts_unmoved (h : Accounts c n u t) {q : Agent} (hq : q ≠ c.agent) : Unmoved q u t where
  clk := accounts_clk_other h hq
  pend := accounts_pend_other h hq
  alive := accounts_alive h
  deficit p := by
    obtain rfl | rfl | ⟨x, rfl⟩ := agent_cases q
    · rfl
    · rfl
    · rw [deficitTo_core, deficitTo_core, accounts_core_other h fun hx => hq (congrArg _ hx)]

/-- A deficit below its threshold is exact: what saturates has reached every threshold (40_scheduler.md R155). -/
theorem toNat_deficit {threshold d : BitVec 32} {n : Nat} (h : ¬ threshold.toNat ≤ min (d.toNat + n) 0xFFFFFFFF) :
    (BitVec.ofNat 32 (min (d.toNat + n) 0xFFFFFFFF)).toNat = d.toNat + n := by
  have := threshold.isLt
  rw [BitVec.toNat_ofNat]
  omega

/-- The accounting of the SH2 tier: its partners are queued, or the deficit has grown by the cycles (40_scheduler.md
R155, R156). -/
theorem accounts_sh2 (h : Accounts c n u t) : (∀ p ∈ sh2Partners c, p ∈ t.pend.get c.agent) ∨
    (t.cores.get c).cyclesUntilSh2Sync.toNat = (u.cores.get c).cyclesUntilSh2Sync.toNat + n := by
  obtain rfl := h
  dsimp only
  rw [PerAgent.get_set_same, PerCore.get_set_same]
  by_cases due : (u.cores.get c).minCyclesBetweenSh2Syncs.toNat ≤
      min ((u.cores.get c).cyclesUntilSh2Sync.toNat + n) 0xFFFFFFFF
  · rw [if_pos due]
    exact .inl fun p hp => List.mem_append_left _ hp
  · exact .inr ((congrArg BitVec.toNat (if_neg due)).trans (toNat_deficit due))

/-- The accounting of the M68K tier (40_scheduler.md R155, R156). -/
theorem accounts_m68k (h : Accounts c n u t) : .h ∈ t.pend.get c.agent ∨
    (t.cores.get c).cyclesUntilM68kSync.toNat = (u.cores.get c).cyclesUntilM68kSync.toNat + n := by
  obtain rfl := h
  dsimp only
  rw [PerAgent.get_set_same, PerCore.get_set_same]
  by_cases due : (u.cores.get c).minCyclesBetweenM68kSyncs.toNat ≤
      min ((u.cores.get c).cyclesUntilM68kSync.toNat + n) 0xFFFFFFFF
  · rw [if_pos due]
    exact .inl (List.mem_append_right _ (List.mem_singleton.mpr rfl))
  · exact .inr ((congrArg BitVec.toNat (if_neg due)).trans (toNat_deficit due))

/-- After the accounting a partner is queued, or the deficit of its tier has grown by the cycles. -/
theorem accounts_tier (h : Accounts c n u t) {p : Agent} (hp : p ≠ c.agent) : p ∈ t.pend.get c.agent ∨
    coreDeficit (t.cores.get c) p = coreDeficit (u.cores.get c) p + n := by
  by_cases hh : p = .h
  · subst hh
    exact accounts_m68k h
  · rw [coreDeficit, coreDeficit, if_neg hh, if_neg hh]
    have partner : p ∈ sh2Partners c := by
      rcases partner_cases hp with rfl | rfl | rfl
      · exact absurd rfl hh
      · exact List.mem_cons_of_mem _ (List.mem_singleton.mpr rfl)
      · exact List.mem_cons_self
    exact (accounts_sh2 h).imp_left (· p partner)

/-- A clock gains no more than the cycles counted: it may wrap (10_state.md R22). -/
theorem toNat_advanced_le (x : BitVec 64) (n : Nat) : (x + BitVec.ofNat 64 n).toNat ≤ x.toNat + n := by
  rw [BitVec.toNat_add, BitVec.toNat_ofNat]
  exact (Nat.mod_le _ _).trans (Nat.add_le_add_left (Nat.mod_le _ _) _)

/-- A core that was synchronised stays within its deficits. -/
theorem accounts_bounded (h : Accounts c n u t) (hpend : u.pend.get c.agent = []) (hu : Bounded u c.agent) :
    Bounded t c.agent := by
  intro p hp hc ha
  rw [accounts_alive h] at hc ha
  rw [deficitTo_core]
  refine (accounts_tier h hp).imp_right fun grown => ?_
  have before := (hu p hp hc ha).resolve_left (by rw [hpend]; exact List.not_mem_nil)
  rw [deficitTo_core] at before
  rw [grown, accounts_clk h, accounts_clk_other h hp]
  have advanced := toNat_advanced_le (u.clk.get c.agent) n
  omega

end

section
variable {s : State}

theorem skewInv_coreStep {c : CoreId} (hturn : CoreTurn c s) (h : SkewInv s) (rise : ClocksRise s (coreStep c s)) :
    SkewInv (coreStep c s) := by
  obtain ⟨-, -, hpend⟩ := hturn
  have keeps := coreBody_keeps c s
  have body (q : Agent) : Unmoved q s (coreBody c s).2 := .of_busKeeps keeps q
  have accounts : Accounts c (coreBody c s).1 (coreBody c s).2 (setResult (coreStep c s) .none) :=
    accounts_syncCheck c _ _
  have stepped : SkewInv (setResult (coreStep c s) .none) := by
    refine skewInv_of_threads h rise fun q hq => ?_
    by_cases hqc : q = c.agent
    · subst hqc
      have idle : (coreBody c s).2.pend.get c.agent = [] := by rw [keeps.pend, hpend]
      have ran := ((skewInv_iff s).mp h c.agent hq).of_unmoved (body _) fun k => by rw [keeps.clk]
      exact .inr (accounts_bounded accounts idle ran)
    · exact .inl ((body q).trans (accounts_unmoved accounts hqc))
  exact skewInv_of_unmoved stepped (fun _ => Nat.le_refl _) fun q _ => .of_same rfl q

/-- A partner is dropped from a queue only where the thread is not ahead of it (40_scheduler.md R157). -/
theorem skewInv_syncResolve {q p : Agent} {rest : List Agent} (hp : s.pend.get q = p :: rest) (h : SkewInv s)
    (rise : ClocksRise s (syncResolve q p rest s)) : SkewInv (syncResolve q p rest s) := by
  unfold syncResolve at rise ⊢
  split
  · exact skewInv_of_unmoved h (fun _ => Nat.le_refl _) fun x _ => .of_same rfl x
  · next level =>
    refine skewInv_of_threads h (fun _ => Nat.le_refl _) fun x hx => ?_
    by_cases hxq : x = q
    · subst hxq
      refine .inr fun y hy hax hay => ?_
      rw [setPend_alive] at hax hay
      rw [setPend_pend, PerAgent.get_set_same]
      have before := (skewInv_iff s).mp h x hx y hy hax hay
      rw [hp] at before
      rcases before with queued | bound
      · rcases List.mem_cons.mp queued with rfl | queued
        · have notBehind : ¬ s.clk.get y < s.clk.get x := by simpa [hay] using level
          exact .inr (Nat.le_add_right_of_le (BitVec.not_lt.mp notBehind))
        · exact .inl queued
      · exact .inr bound
    · exact .inl (setPend_unmoved hxq rest s)

theorem skewInv_audioStep (h : SkewInv s) (rise : ClocksRise s (audioStep s)) : SkewInv (audioStep s) := by
  refine skewInv_of_threads h rise fun q _ => ?_
  by_cases hq : q = .a
  · subst hq
    refine .inr fun p hp _ _ => .inl ?_
    rw [audioStep, setPend_pend, PerAgent.get_set_same]
    cases p
    case a => exact absurd rfl hp
    all_goals simp
  · exact .inl ((audioBody_unmoved s q).trans ((tick_unmoved hq 1 _).trans (setPend_unmoved hq _ _)))

/-- After `UNLOAD` no thread exists. -/
theorem skewInv_unload (s : State) : SkewInv (unload s) := by
  refine (skewInv_iff _).mpr fun q hq p _ halive => ?_
  cases q
  · exact absurd rfl hq
  all_goals exact nomatch halive

/-- After `POWER` every clock is 0. -/
theorem skewInv_power (r : Bool) (s : State) : SkewInv (power r s) := by
  rw [power_eq]
  refine (skewInv_iff _).mpr fun q _ p _ _ _ => .inr ?_
  cases q <;> exact Nat.zero_le _

/-! ### Every step -/

/-- What an operation performs keeps the skew bound, but for `RESTART` (log entry 26). -/
theorem skewInv_performed {j : Instr} {u : State} (hj : Performed j s u) (hr : j ≠ .restart) (h : SkewInv s)
    (rise : ClocksRise s u) : SkewInv u := by
  have still (k : ∀ q, Unmoved q s u) := skewInv_of_unmoved h rise fun q _ => k q
  have bus (k : BusKeeps s u) := still (.of_busKeeps k)
  cases hj with
  | read i l g _ _ => exact bus (targetRead_keeps i l g s)
  | regWrite r i l d _ => exact bus (regWrite_keeps i r l d s)
  | busWrite l i a d _ => exact bus (targetWrite_keeps i l _ d s)
  | windowWrite i l g d _ _ _ _ => exact bus (targetWrite_keeps i l g d s)
  | power r _ => exact skewInv_power r s
  | restart _ => exact absurd rfl hr
  | unload _ => exact skewInv_unload s
  | vblank b _ => exact still (vblankEvent_unmoved b s)
  | hblank b _ => exact still (hblankEvent_unmoved b s)
  | scanline y _ => exact still (.of_same rfl)
  | hostAdvance n _ => exact skewInv_of_unmoved h rise fun q hq => tick_unmoved hq _ s
  | hostSync _ => exact skewInv_of_unmoved h rise fun q hq => setPend_unmoved hq _ s
  | coreStep c hturn => exact skewInv_coreStep hturn h rise
  | syncResolve q p rest _ _ hp => exact skewInv_syncResolve hp h rise
  | audioStep _ => exact skewInv_audioStep h rise
  | pwmTimerStep => exact still (pwmTimerStep_unmoved s)
  | sampleTick => exact still (sampleTick_unmoved s)
  | fifoWrite thr ch v => exact still (.of_same rfl)
  | fifoRead ch => exact still (by rw [fifoRead_eq]; exact .of_same rfl)
  | fifoDrain ch => exact still (by rw [fifoDrain_eq]; exact .of_same rfl)
  | dreqStep _ => exact bus (dreqStep_keeps s)
  | autofillStep _ => exact bus (autofillStep_keeps s)
  | irqRaise thr c k => exact bus (irqRaise_keeps c k s)
  | irqQuery c _ => exact h
  | irqDispatch c k _ => exact bus (irqDispatch_keeps c k s)
  | latchCommit => exact still (.of_same rfl)
  | fbCommit thr => exact bus (fbCommit_keeps s)
  | selectFb thr v => exact bus (selectFb_keeps v s)

theorem skewInv_exec {j : Instr} {t : State} (he : exec j s = .next t) (hr : j ≠ .restart) (h : SkewInv s)
    (rise : ClocksRise s t) : SkewInv t := by
  obtain ⟨u, r, hu, rfl⟩ := exec_next he
  exact skewInv_of_unmoved (skewInv_performed hu hr h rise) (fun _ => Nat.le_refl _) fun q _ => .of_same rfl q

end

/-- Settles O58: by what each operation performs, thread by thread. -/
theorem skewBoundIsKeptByEveryStep : Obligations.SkewBoundIsKeptByEveryStep := by
  intro s t h rise hword hstep
  rcases step_cases hstep with ⟨i, hi, he⟩ | ⟨w, rest, i, hnone, hops, hd, -, he⟩
  · refine skewInv_exec he ?_ h rise
    obtain ⟨-, -, ⟨rfl, -⟩ | ⟨-, ⟨-, rfl⟩ | ⟨-, rfl⟩ | ⟨-, rfl⟩⟩⟩ := internalStep_eq_some s i hi <;> exact nofun
  · have taken : SkewInv { s with ops := rest } :=
      skewInv_of_unmoved h (fun _ => Nat.le_refl _) fun q _ => .of_same rfl q
    exact skewInv_exec he (fun hr => hword w rest hnone hops (hr ▸ hd)) taken rise

/-! ### The bound where a thread starts a step -/

/-- A deficit that is 0 or below its threshold (40_scheduler.md R156). -/
theorem deficit_le_threshold {d threshold : BitVec 32} (h : d = 0 ∨ d < threshold) :
    d.toNat ≤ max threshold.toNat 1 - 1 := by
  rcases h with rfl | h
  · exact Nat.zero_le _
  · have : d.toNat < threshold.toNat := h
    omega

theorem deficitInv_of_inv {s : State} (h : Inv s) (c : CoreId) : DeficitInv c (s.cores.get c) := by
  cases c
  · exact h.coreM
  · exact h.coreS

/-- A thread with an empty queue is ahead of each partner by no more than its bound. -/
theorem ahead_of_idle {s : State} {q : Agent} (h : Bounded s q) (halive : s.alive q = true)
    (hpend : s.pend.get q = []) {p : Agent} (hp : p ≠ q) (ha : s.alive p = true) :
    (s.clk.get q).toNat ≤ (s.clk.get p).toNat + deficitTo s q p :=
  (h p hp halive ha).resolve_left (by rw [hpend]; exact List.not_mem_nil)

/-- Settles O59: in its turn a thread has no partner queued, and its deficits are below the thresholds. -/
theorem skewIsBoundedByTheThresholds : Obligations.SkewIsBoundedByTheThresholds := by
  intro s hinv hskew
  have bounded := (skewInv_iff s).mp hskew
  refine ⟨fun c ⟨_, halive, hpend⟩ => ?_, fun ⟨_, halive, hpend⟩ p ha => ?_⟩
  · have deficits := deficitInv_of_inv hinv c
    have ahead {p : Agent} (hp : p ≠ c.agent) (ha : s.alive p = true) :
        (s.clk.get c.agent).toNat ≤ (s.clk.get p).toNat + coreDeficit (s.cores.get c) p := by
      rw [← deficitTo_core]
      exact ahead_of_idle (bounded c.agent (CoreId.agent_ne_h c)) halive hpend hp ha
    refine ⟨fun p hp ha => ?_, (ahead (CoreId.agent_ne_h c).symm rfl).trans
      (Nat.add_le_add_left (deficit_le_threshold deficits.m68k) _)⟩
    have partner : p ≠ c.agent ∧ p ≠ .h := by
      rcases hp with rfl | rfl
      · exact ⟨other_agent_ne c, CoreId.agent_ne_h _⟩
      · exact ⟨(CoreId.agent_ne_a c).symm, nofun⟩
    have sh2 := ahead partner.1 ha
    rw [coreDeficit, if_neg partner.2] at sh2
    exact sh2.trans (Nat.add_le_add_left (deficit_le_threshold deficits.sh2) _)
  · by_cases hp : p = .a
    · rw [hp]
      exact Nat.le_refl _
    · exact ahead_of_idle (bounded .a nofun) halive hpend hp ha

end Sys2Proof.SchedulerProofs
end

section
/-! # The family of the bus (spec/41_bus.md)

The lanes of a transaction, the windows of SDRAM and of the palette, and the external space (41_bus.md R190 to R203). -/

namespace Sys2Proof.BusProofs
open Sys2Proof.Machine Sys2Proof.Laws Sys2Proof.StateProofs Sys2Proof.MemoryProofs

/- Elaborate these proofs one after the other. All at once, while the kernel still checks the text above, they can need
more threads than the check's limit on memory has room for. -/
set_option deprecated.oldSectionVars true

/-! ### Windows of a memory -/

/-- A transaction whose target is a word of memory reads it on the lanes, or stores its lanes in it and does nothing
else. -/
theorem transact_memoryWord {i : Initiator} {s : State} (hm : MayIssue i s) {g : Target} {m : MemId} {w wait : Nat}
    (hread : ∀ l, targetRead i l g s = (readWord s m w, s))
    (hwrite : ∀ l d, targetWrite i l g d s = writeWord s m w l d) (hwait : waitOf i g s = wait)
    (l : Lanes) (d : Word) :
    transactRead i l g s = .next { s with result := .bus (l.mask (readWord s m w)) wait } ∧
      ∃ t, transactWrite i l g d s = .next t ∧ StoredOnly s t m w l d wait := by
  rw [transactRead_eq i l g s hm, transactWrite_eq i l g d s hm, hread, hwrite, hwait]
  exact ⟨rfl, _, rfl, storedOnly_writeWord s m w l d wait⟩

/-- Contention at SDRAM is case (c) of 20_memory.md R96. -/
theorem waitOf_sdram (i : Initiator) (idx : Nat) (s : State) : waitOf i (.sdram idx) s =
    if i = .h ∧ s.dreq.active = true ∧ s.dreq.vram = false then Config.fbWait else 0 :=
  if_congr (by simp [contended]) rfl rfl

/-- Contention at the palette is case (b) of 20_memory.md R96, with the engagement of 10_state.md R40. -/
theorem waitOf_palette (i : Initiator) (idx : Nat) (s : State) : waitOf i (.palette idx) s =
    if s.vdp.vblank = false ∧ (s.vdp.latch.mode = .packed ∨ s.vdp.latch.mode = .rle) then Config.fbWait else 0 :=
  if_congr (by simp [contended, paletteEngaged]) rfl rfl

/-- Settles O13: the two rows and the generic transactions reach the words of SDRAM through the same target. -/
theorem sdramWindowReadsAndMerges : Obligations.SdramWindowReadsAndMerges := by
  intro i l off d s hm
  have window (idx : Nat) := transact_memoryWord hm (fun _ => rfl) (fun _ _ => rfl) (waitOf_sdram i idx s) l d
  obtain ⟨loRead, loWrite⟩ := window (off.toNat / 2)
  obtain ⟨hiRead, hiWrite⟩ := window (0x10000 + off.toNat / 2)
  refine ⟨loRead, hiRead, loWrite, hiWrite, fun a h0 h1 => ?_⟩
  rw [exec_readOn, exec_writeOn, targetOf_sdramAt i h0 h1]
  exact window _

/-- Settles O14: the row and the generic transactions reach the entries of the palette through the same target. -/
theorem paletteWindowReadsAndMerges : Obligations.PaletteWindowReadsAndMerges := by
  intro i l off d s hm
  have window (idx : Nat) := transact_memoryWord hm (fun _ => rfl) (fun _ _ => rfl) (waitOf_palette i idx s) l d
  obtain ⟨read, write⟩ := window (off.toNat / 2)
  refine ⟨read, write, fun a h0 h1 => ?_⟩
  rw [exec_readOn, exec_writeOn, targetOf_paletteAt i h0 h1]
  exact window _

/-! ### Lanes -/

/-- Settles O9, one lane selection after the other. -/
theorem lanesSelectTheirBytes : Obligations.LanesSelectTheirBytes := fun v old d =>
  ⟨mask_word v, mask_upper v, mask_lower v,
    merge_eq_masks .word old d, merge_eq_masks .upper old d, merge_eq_masks .lower old d⟩

/-! ### The external space -/

section
variable {i : Initiator} {a : Long} (ha : ExternalAt i a)
include ha

theorem exec_writeOn_external {s : State} (hm : MayIssue i s) (l : Lanes) (d : Word) :
    exec (writeOn l i a d) s = .next { s with
      extLog := s.extLog ++ [⟨.write, l, a &&& 0xFFFFFFFE, d⟩]
      result := .bus 0 0 } := by
  rw [exec_writeOn, transactWrite_eq i l _ d s hm, targetOf_externalAt ha]
  rfl

/-- The row EXTERNAL reads as the generic row does (41_bus.md R203). -/
theorem exec_externalRd_eq_readOn (l : Lanes) (s : State) : exec (.externalRd i l a) s = exec (readOn l i a) s := by
  rw [exec_readOn, targetOf_externalAt ha]
  rfl

/-- The row EXTERNAL writes as the generic row does (41_bus.md R203). -/
theorem exec_externalWr_eq_writeOn (l : Lanes) (d : Word) (s : State) :
    exec (.externalWr i l a d) s = exec (writeOn l i a d) s := by
  rw [exec_writeOn, targetOf_externalAt ha]
  rfl

end

/-- Settles O12: the generic transactions at an external address, and the row EXTERNAL, which has their effect. -/
theorem externalTransactionsPassThrough : Obligations.ExternalTransactionsPassThrough := by
  intro i l a d s hm ha
  have read := exec_readOn_external ha hm l
  have write := exec_writeOn_external ha hm l d
  exact ⟨List.forall_mem_cons.mpr
      ⟨read, List.forall_mem_singleton.mpr ((exec_externalRd_eq_readOn ha l s).trans read)⟩,
    List.forall_mem_cons.mpr
      ⟨write, List.forall_mem_singleton.mpr ((exec_externalWr_eq_writeOn ha l d s).trans write)⟩⟩

end Sys2Proof.BusProofs
end

section
/-! # The family of the interrupt controller (spec/42_interrupt.md)

The banked register writes, and the three sub-procedures `IRQ_RAISE`, `IRQ_QUERY` and `IRQ_DISPATCH`
(42_interrupt.md R220 to R227). -/

namespace Sys2Proof.InterruptProofs
open Sys2Proof.Machine Sys2Proof.Laws Sys2Proof.StateProofs Sys2Proof.MemoryProofs

/- Elaborate these proofs one after the other. All at once, while the kernel still checks the text above, they can need
more threads than the check's limit on memory has room for. -/
set_option deprecated.oldSectionVars true

/-! ### The banked registers -/

@[simp] theorem setIrq_self (s : State) (c : CoreId) : setIrq s c (s.cores.get c).irq = s := by
  cases c <;> rfl

theorem updateBanked_core (c : CoreId) (f : IrqCtl → IrqCtl) (s : State) :
    updateBanked c.init f s = setIrq s c (f (s.cores.get c).irq) := by
  rw [updateBanked, CoreId.init_core]

/-- A write of a core through the lower lane of a banked register updates that core's controller. -/
theorem bankedWrite_core (c : CoreId) (l : Lanes) (f : IrqCtl → IrqCtl) (s : State) :
    (if l.l then updateBanked c.init f s else s) =
      setIrq s c (if l = .upper then (s.cores.get c).irq else f (s.cores.get c).irq) := by
  by_cases hl : l = .upper
  · subst hl
    exact (setIrq_self s c).symm
  · rw [if_pos (lower_of_ne_upper hl), if_neg hl, updateBanked_core]

/-- H and DREQ have no controller to write (42_interrupt.md R222). -/
theorem bankedWrite_none {i : Initiator} (hi : i = .h ∨ i = .dreq) (l : Lanes) (f : IrqCtl → IrqCtl) (s : State) :
    (if l.l then updateBanked i f s else s) = s := by
  have same : updateBanked i f s = s := by rcases hi with rfl | rfl <;> rfl
  rw [same, ite_self]

theorem regWrite_irqen_core (c : CoreId) (l : Lanes) (d : Word) (s : State) :
    regWrite c.init .irqen l d s = setIrq s c { (s.cores.get c).irq with
      enable := if l = .upper then (s.cores.get c).irq.enable else sourceBitsOf d } := by
  refine (bankedWrite_core c l _ s).trans ?_
  cases l <;> rfl

theorem regWrite_irqack_core (c : CoreId) (l : Lanes) (d : Word) (s : State) :
    regWrite c.init .irqack l d s = setIrq s c { (s.cores.get c).irq with
      active := if l = .upper then (s.cores.get c).irq.active else ackBits (s.cores.get c).irq.active d } := by
  refine (bankedWrite_core c l _ s).trans ?_
  cases l <;> rfl

/-- The active bits an `IRQACK` write leaves: those written 1 through the lower lane are cleared (42_interrupt.md R224). -/
theorem ackBits_lane_get (active : SourceBits) (l : Lanes) (d : Word) (k : Source) :
    (if l = .upper then active else ackBits active d).get k =
      (active.get k && !(decide (l ≠ .upper) && d.getLsbD k.code.toNat)) := by
  by_cases hl : l = .upper
  · simp [hl]
  · simp [hl, ackBits_get]

/-- Settles O19. -/
theorem interruptRegisterWritesAreBanked : Obligations.InterruptRegisterWritesAreBanked := by
  refine ⟨fun l d s => ⟨fun c => ?_, fun i hi hm => ?_⟩,
    fun l d s => ⟨fun c => ⟨_, ?_, ackBits_lane_get _ l d⟩, fun i hi hm => ?_, fun i hm => ?_⟩⟩
  case refine_1 =>
    have write := exec_reg_write .irqen c.init l d s (mayIssue_core c s)
    rwa [regWrite_irqen_core] at write
  case refine_2 =>
    have write := exec_reg_write .irqen i l d s hm
    rwa [show regWrite i .irqen l d s = s from bankedWrite_none hi l _ s] at write
  case refine_3 =>
    have write := exec_reg_write .irqack c.init l d s (mayIssue_core c s)
    rwa [regWrite_irqack_core] at write
  case refine_4 =>
    have write := exec_reg_write .irqack i l d s hm
    rwa [show regWrite i .irqack l d s = s from bankedWrite_none hi l _ s] at write
  case refine_5 => exact exec_reg_write .irqstat i l d s hm

/-! ### `IRQ_RAISE` -/

@[simp] theorem sourceBits_set_get_self (b : SourceBits) (k : Source) : b.set k (b.get k) = b := by
  cases k <;> rfl

/-- Of a core, `IRQ_RAISE` changes active bits only. -/
theorem irqRaise_core (c : CoreId) (k : Source) (s : State) (c' : CoreId) :
    (irqRaise c k s).cores.get c' = { s.cores.get c' with irq := { (s.cores.get c').irq with
      active := ((irqRaise c k s).cores.get c').irq.active } } := by
  cases c <;> cases c' <;> rfl

/-- A source that is active is raised without effect. -/
theorem irqRaise_of_active {c : CoreId} {k : Source} {s : State} (h : (s.cores.get c).irq.active.get k = true) :
    irqRaise c k s = s := by
  rw [irqRaise, ← h, sourceBits_set_get_self]
  exact setIrq_self s c

/-- Settles O21. -/
theorem irqRaiseSetsOneActiveBit : Obligations.IrqRaiseSetsOneActiveBit := by
  intro thr c k s
  refine ⟨setResult (irqRaise c k s) .none, rfl, rfl, fun c' k' => ?_, irqRaise_core c k s, fun h => ?_⟩
  · rw [Bool.eq_iff_iff, Bool.or_eq_true, decide_eq_true_eq]
    exact irqRaise_active c k s c' k'
  · rw [irqRaise_of_active h]
    rfl

/-! ### `IRQ_QUERY` -/

/-- In a list of sources in descending order of level, the first that meets a test is the one of highest level that
does. -/
theorem find?_eq_some_iff_highest {ks : List Source} (p : Source → Bool)
    (sorted : ks.Pairwise fun a b => Config.irqLevel b < Config.irqLevel a) (k : Source) :
    ks.find? p = some k ↔
      k ∈ ks ∧ p k = true ∧ ∀ j ∈ ks, p j = true → Config.irqLevel j ≤ Config.irqLevel k := by
  induction ks with
  | nil => simp
  | cons x xs ih =>
    obtain ⟨above, sorted⟩ := List.pairwise_cons.mp sorted
    by_cases hx : p x = true
    · rw [List.find?_cons_of_pos hx, Option.some_inj]
      constructor
      · rintro rfl
        exact ⟨List.mem_cons_self, hx, List.forall_mem_cons.mpr
          ⟨fun _ => BitVec.le_refl _, fun j hj _ => BitVec.le_of_lt (above j hj)⟩⟩
      · rintro ⟨hk, -, highest⟩
        rcases List.mem_cons.mp hk with rfl | hk
        · rfl
        · exact absurd (above k hk) (BitVec.not_lt.mpr (highest x List.mem_cons_self hx))
    · have notHead : p k = true → k ≠ x := by
        rintro hk rfl
        exact hx hk
      rw [List.find?_cons_of_neg hx, ih sorted, List.forall_mem_cons, List.mem_cons]
      constructor
      · rintro ⟨hk, hp, highest⟩
        exact ⟨.inr hk, hp, fun h => absurd h hx, highest⟩
      · rintro ⟨hk, hp, -, highest⟩
        exact ⟨hk.resolve_left (notHead hp), hp, highest⟩

theorem mem_priorityOrder (k : Source) : k ∈ priorityOrder := by cases k <;> decide

theorem priorityOrder_descending :
    priorityOrder.Pairwise fun a b => Config.irqLevel b < Config.irqLevel a := by decide

theorem pending_iff (q : IrqCtl) (k : Source) :
    pending q k = true ↔ q.enable.get k = true ∧ q.active.get k = true := Bool.and_eq_true_iff

theorem irqQuery_eq_some_iff (c : CoreId) (s : State) (k : Source) :
    irqQuery c s = some k ↔ pending (s.cores.get c).irq k = true ∧
      ∀ j, pending (s.cores.get c).irq j = true → Config.irqLevel j ≤ Config.irqLevel k := by
  rw [irqQuery, find?_eq_some_iff_highest _ priorityOrder_descending]
  simp [mem_priorityOrder]

theorem irqQuery_eq_none_iff (c : CoreId) (s : State) :
    irqQuery c s = none ↔ ∀ j, ¬ pending (s.cores.get c).irq j = true := by
  rw [irqQuery, List.find?_eq_none]
  simp [mem_priorityOrder]

/-- Settles O22: the sources are looked through in descending order of level. -/
theorem irqQueryPicksTheHighestPendingSource : Obligations.IrqQueryPicksTheHighestPendingSource := by
  refine fun s => ⟨fun c => ⟨irqQuery c s, ?_, fun k => ?_, ?_⟩, rfl, rfl, rfl, rfl, rfl⟩
  · cases c <;> rfl
  · simp only [irqQuery_eq_some_iff, pending_iff, and_imp, and_assoc]
  · simp only [irqQuery_eq_none_iff, pending_iff]

/-! ### `IRQ_DISPATCH` -/

/-- The words of a vector in its boot ROM: their byte addresses, and that the smaller ROM holds them. -/
theorem vector_addresses (k : Source) :
    (evenAddr (BitVec.ofNat 32 (Config.vecBase + 4 * Config.vec k))).toNat = 4 * Config.vec k ∧
      (evenAddr (BitVec.ofNat 32 (Config.vecBase + 4 * Config.vec k)) + 2).toNat = 4 * Config.vec k + 2 ∧
      2 * Config.vec k + 1 < 512 := by
  cases k <;> decide

theorem le_bootromWords (c : CoreId) : 512 ≤ Config.bootromWords c := by cases c <;> decide

/-- The vector of a source, as a core reads it: the long of its own boot ROM, with no wait and no effect. -/
theorem memRead_vector (c : CoreId) (k : Source) (s : State) :
    memRead c.init (BitVec.ofNat 32 (Config.vecBase + 4 * Config.vec k)) .long s =
      (joinWords (readWord s (bootMem c) (2 * Config.vec k)) (readWord s (bootMem c) (2 * Config.vec k + 1)), 0, s) := by
  obtain ⟨hiAddr, loAddr, inRom⟩ := vector_addresses k
  have size := le_bootromWords c
  have hiIdx : 4 * Config.vec k / 2 % Config.bootromWords c = 2 * Config.vec k :=
    (Nat.mod_eq_of_lt (by omega)).trans (by omega)
  have loIdx : (4 * Config.vec k + 2) / 2 % Config.bootromWords c = 2 * Config.vec k + 1 :=
    (Nat.mod_eq_of_lt (by omega)).trans (by omega)
  unfold memRead
  dsimp only
  rw [busRead_boot c (by omega), hiAddr, hiIdx]
  dsimp only
  rw [busRead_boot c (by omega), loAddr, loIdx, Nat.zero_add]

/-- `IRQ_DISPATCH` gives the core the registers of the engine's `Enter` and changes nothing else (60_exceptions.md R366). -/
theorem irqDispatch_eq (c : CoreId) (k : Source) (s : State) :
    let v := joinWords (readWord s (bootMem c) (2 * Config.vec k)) (readWord s (bootMem c) (2 * Config.vec k + 1))
    (irqDispatch c k s).2 = setRegs s c
      ⟨v, Config.engineEnter (s.cores.get c).regs k (Config.irqLevel k) (Config.vec k) v⟩ := by
  rw [irqDispatch, memRead_vector]

/-- Settles O23. -/
theorem irqDispatchVectorsThroughTheBootRom : Obligations.IrqDispatchVectorsThroughTheBootRom := by
  refine fun k c s => ⟨?_, rfl, rfl, rfl, rfl, rfl⟩
  have dispatched := congrArg procedure (irqDispatch_eq c k s)
  cases c <;> exact dispatched

end Sys2Proof.InterruptProofs
end

section
/-! # The family of the framebuffer engine (spec/43_vdp.md)

The writes of the VDP registers, the edges of the blanking levels, the fill and the scanline renderer
(43_vdp.md R240 to R262). -/

namespace Sys2Proof.VdpProofs
open Sys2Proof.Machine Sys2Proof.Laws Sys2Proof.StateProofs

/- Elaborate these proofs one after the other. All at once, while the kernel still checks the text above, they can need
more threads than the check's limit on memory has room for. -/
set_option deprecated.oldSectionVars true

/-! ### The display registers -/

theorem code_displayModeOf (b : BitVec 2) : (displayModeOf b).code = b := by
  revert b
  decide

theorem vdpmodeWrite_lower {l : Lanes} (hl : l ≠ .upper) (d : Word) (s : State) :
    vdpmodeWrite l d s = { s with vdp := { s.vdp with live := { s.vdp.live with
      mode := displayModeOf (d.extractLsb' 0 2), lines := d.getLsbD 6, priority := d.getLsbD 7 } } } :=
  if_pos (lower_of_ne_upper hl)

theorem vdpshiftWrite_lower {l : Lanes} (hl : l ≠ .upper) (d : Word) (s : State) :
    vdpshiftWrite l d s = { s with vdp := { s.vdp with live := { s.vdp.live with dotshift := d.getLsbD 0 } } } :=
  if_pos (lower_of_ne_upper hl)

/-! ### The registers of a fill -/

section
variable {s : State} (l : Lanes) (d : Word)

theorem aflenWrite_active (h : s.vdp.autofillActive = true) : aflenWrite l d s = s := by
  rw [aflenWrite, h, Bool.not_true, Bool.and_false]
  rfl

theorem afaddrWrite_active (h : s.vdp.autofillActive = true) : afaddrWrite l d s = s := if_pos h

theorem afdataWrite_active (h : s.vdp.autofillActive = true) : afdataWrite l d s = s := if_pos h

theorem aflenWrite_idle (h : s.vdp.autofillActive = false) : aflenWrite l d s = { s with vdp := { s.vdp with
    autofillLength := if l = .upper then s.vdp.autofillLength else loByte d } } := by
  rw [aflenWrite, h, Bool.not_false, Bool.and_true]
  cases l <;> rfl

theorem afaddrWrite_idle (h : s.vdp.autofillActive = false) : afaddrWrite l d s = { s with vdp := { s.vdp with
    autofillAddress := l.merge s.vdp.autofillAddress d } } := if_neg (Bool.eq_false_iff.mp h)

/-- The write that starts a fill: with length 0 nothing starts (43_vdp.md R244). -/
theorem afdataWrite_idle (h : s.vdp.autofillActive = false) : afdataWrite l d s = { s with vdp := { s.vdp with
    autofillData := l.merge s.vdp.autofillData d
    autofillActive := decide (s.vdp.autofillLength ≠ 0)
    autofillRemaining := if s.vdp.autofillLength = 0 then s.vdp.autofillRemaining else s.vdp.autofillLength } } := by
  rw [afdataWrite, if_neg (Bool.eq_false_iff.mp h)]
  dsimp only
  by_cases hlen : s.vdp.autofillLength = 0
  · have stays : decide (s.vdp.autofillLength ≠ 0) = s.vdp.autofillActive :=
      (decide_eq_false (not_not_intro hlen)).trans h.symm
    rw [if_pos hlen, if_pos hlen, stays]
  · rw [if_neg hlen, if_neg hlen, decide_eq_true hlen]

end

/-- Settles O39. -/
theorem vdpRegisterWrites : Obligations.VdpRegisterWrites := by
  refine ⟨fun i l d s hm => ⟨fun upper => ?_, fun lower => ⟨⟨_, code_displayModeOf _, ?_⟩, ?_⟩⟩,
    fun i l d s hm => ⟨fun active => ?_, fun idle => ⟨?_, ?_, ?_⟩⟩⟩
  case refine_1 =>
    subst upper
    exact ⟨exec_reg_write .vdpmode i .upper d s hm, exec_reg_write .vdpshift i .upper d s hm⟩
  case refine_2 =>
    have write := exec_reg_write .vdpmode i l d s hm
    rwa [regWrite, vdpmodeWrite_lower lower] at write
  case refine_3 =>
    have write := exec_reg_write .vdpshift i l d s hm
    rwa [regWrite, vdpshiftWrite_lower lower] at write
  case refine_4 =>
    have aflen := exec_reg_write .aflen i l d s hm
    have afaddr := exec_reg_write .afaddr i l d s hm
    have afdata := exec_reg_write .afdata i l d s hm
    rw [regWrite, aflenWrite_active l d active] at aflen
    rw [regWrite, afaddrWrite_active l d active] at afaddr
    rw [regWrite, afdataWrite_active l d active] at afdata
    exact List.forall_mem_cons.mpr ⟨aflen, List.forall_mem_cons.mpr ⟨afaddr, List.forall_mem_singleton.mpr afdata⟩⟩
  case refine_5 =>
    have write := exec_reg_write .aflen i l d s hm
    rwa [regWrite, aflenWrite_idle l d idle] at write
  case refine_6 =>
    have write := exec_reg_write .afaddr i l d s hm
    rwa [regWrite, afaddrWrite_idle l d idle] at write
  case refine_7 =>
    have write := exec_reg_write .afdata i l d s hm
    rwa [regWrite, afdataWrite_idle l d idle] at write

/-! ### The blanking levels -/

theorem exec_vblank {s : State} (h : HostTurn s) (b : Bool) :
    exec (.vblank b) s = .next (setResult (vblankEvent b s) .none) := hostEvent_eq s _ h

theorem exec_hblank {s : State} (h : HostTurn s) (b : Bool) :
    exec (.hblank b) s = .next (setResult (hblankEvent b s) .none) := hostEvent_eq s _ h

/-- A notification that is no 0-to-1 edge. -/
theorem not_edge {old new : Bool} (h : old = true ∨ new = false) : ¬ (!old && new) = true := by
  rcases h with rfl | rfl
  · exact nofun
  · rw [Bool.and_false]
    exact nofun

theorem vblankEvent_level {s : State} {b : Bool} (h : s.vdp.vblank = true ∨ b = false) :
    vblankEvent b s = { s with vdp := { s.vdp with vblank := b } } := if_neg (not_edge h)

/-- At the rising edge of `VBLANK` the scan has ended, so only a paint can hold the swap back (43_vdp.md R250, R253). -/
theorem vblankEvent_edge {s : State} (h : s.vdp.vblank = false) :
    vblankEvent true s = irqRaiseBoth .vint { s with
      vdp := { s.vdp with vblank := true, latch := s.vdp.live }
      fbSel := if paintEngaged s then s.fbSel else s.vdp.fbReq } := by
  have edge : (!s.vdp.vblank && true) = true := by rw [h]; rfl
  unfold vblankEvent
  dsimp only
  rw [if_pos edge, fbCommit_eq_ite]
  rfl

theorem hblankEvent_level {s : State} {b : Bool} (h : s.vdp.hblank = true ∨ b = false) :
    hblankEvent b s = { s with vdp := { s.vdp with hblank := b } } := if_neg (not_edge h)

/-- The rising edge of `HBLANK`: the counter restarts with `hint`, or counts (43_vdp.md R251). -/
theorem hblankEvent_edge {s : State} (h : s.vdp.hblank = false) :
    hblankEvent true s = if s.io.hperiod ≤ s.io.hcounter
      then irqRaiseBoth .hint { s with vdp := { s.vdp with hblank := true }, io := { s.io with hcounter := 0 } }
      else { s with
        vdp := { s.vdp with hblank := true }, io := { s.io with hcounter := s.io.hcounter + 1 } } := by
  have edge : (!s.vdp.hblank && true) = true := by rw [h]; rfl
  exact if_pos edge

/-- Settles O42. -/
theorem blankingEdges : Obligations.BlankingEdges := by
  refine ⟨fun s b => ⟨rfl, fun hturn => ⟨fun level => ?_, fun low high => ?_⟩⟩,
    fun s b hturn => ⟨fun level => ?_, fun low high counts => ?_, fun low high restarts => ?_⟩⟩
  · rw [exec_vblank hturn, vblankEvent_level level]
    rfl
  · subst high
    rw [exec_vblank hturn, vblankEvent_edge low]
    rfl
  · rw [exec_hblank hturn, hblankEvent_level level]
    rfl
  · subst high
    rw [exec_hblank hturn, hblankEvent_edge low, if_neg (BitVec.not_le.mpr counts)]
    rfl
  · subst high
    rw [exec_hblank hturn, hblankEvent_edge low, if_pos restarts]
    rfl

/-! ### Repeated operations -/

/-- One more performance of an operation, at the end. -/
theorem execTimes_succ_last {j : Instr} {n : Nat} {s t u : State} (hrun : execTimes j n s = .next t)
    (hlast : exec j t = .next u) : execTimes j (n + 1) s = .next u := by
  induction n generalizing s with
  | zero =>
    obtain rfl := Host.Outcome.next.inj hrun
    rw [execTimes, hlast]
    rfl
  | succ n ih =>
    rw [execTimes] at hrun ⊢
    split at hrun
    · exact ih hrun
    · exact nomatch hrun
    · exact nomatch hrun

/-! ### A fill (43_vdp.md R249) -/

/-- The index in its bank of word `k` of the fill in progress. -/
def fillIndex (s : State) (k : Nat) : Nat := (s.vdp.autofillAddress.toNat + k) % 65536

/-- `n` steps of the fill of `s` have led to `t`: they have written its first `n` words, and the bank has not moved
while words are left. -/
structure Filled (s : State) (n : Nat) (t : State) : Prop where
  vdp : t.vdp = { s.vdp with
    autofillAddress := s.vdp.autofillAddress + BitVec.ofNat 16 n
    autofillRemaining := s.vdp.autofillRemaining - BitVec.ofNat 8 n
    autofillActive := decide (n < s.vdp.autofillRemaining.toNat) }
  bank : n < s.vdp.autofillRemaining.toNat → t.fbSel = s.fbSel
  stored : ∀ k < n, readWord t (backBank s) (fillIndex s k) = s.vdp.autofillData
  others : ∀ x, (∀ k < n, x ≠ (backBank s).loc (2 * fillIndex s k) ∧ x ≠ (backBank s).loc (2 * fillIndex s k + 1)) →
    readByte t x = readByte s x

theorem toNat_remaining {r : BitVec 8} {n : Nat} (h : n ≤ r.toNat) : (r - BitVec.ofNat 8 n).toNat = r.toNat - n := by
  have hr := r.isLt
  rw [BitVec.toNat_sub, BitVec.toNat_ofNat]
  omega

/-- After one more step words are left exactly where the count says so. -/
theorem remaining_step_ne_zero {r : BitVec 8} {n : Nat} (h : n < r.toNat) :
    r - BitVec.ofNat 8 (n + 1) ≠ 0 ↔ n + 1 < r.toNat := by
  have left := toNat_remaining h
  have zero : r - BitVec.ofNat 8 (n + 1) = 0 ↔ r.toNat - (n + 1) = 0 := by
    rw [← left, ← BitVec.toNat_inj]
    rfl
  rw [Ne, zero]
  omega

theorem Filled.zero {s : State} (hactive : s.vdp.autofillActive = true) (hleft : s.vdp.autofillRemaining ≠ 0) :
    Filled s 0 s where
  vdp := by
    have left : 0 < s.vdp.autofillRemaining.toNat :=
      Nat.pos_of_ne_zero fun h => hleft (BitVec.eq_of_toNat_eq h)
    have address : s.vdp.autofillAddress + BitVec.ofNat 16 0 = s.vdp.autofillAddress := BitVec.add_zero _
    have remaining : s.vdp.autofillRemaining - BitVec.ofNat 8 0 = s.vdp.autofillRemaining := BitVec.sub_zero _
    rw [decide_eq_true left, ← hactive, address, remaining]
  bank _ := rfl
  stored k hk := absurd hk (Nat.not_lt_zero k)
  others _ _ := rfl

/-- A step of the fill: the word at the fill address written, the counters moved, and perhaps the bank. -/
theorem autofillStep_eq (s : State) : autofillStep s = { s with
    mem := (writeWord s (backBank s) (s.vdp.autofillAddress.toNat % 65536) .word s.vdp.autofillData).mem
    vdp := { s.vdp with
      autofillAddress := s.vdp.autofillAddress + 1
      autofillRemaining := s.vdp.autofillRemaining - 1
      autofillActive := s.vdp.autofillActive && s.vdp.autofillRemaining - 1 != 0 }
    fbSel := (autofillStep s).fbSel } := by
  rw [autofillStep, autofillAdvance_eq]
  rfl

theorem autofillAdvance_fbSel {s : State} (h : s.vdp.autofillRemaining - 1 ≠ 0) :
    (autofillAdvance s).fbSel = s.fbSel := by
  unfold autofillAdvance
  dsimp only
  rw [if_neg (mt eq_of_beq h)]

/-- While words are left the step moves no bank. -/
theorem autofillStep_fbSel {s : State} (h : s.vdp.autofillRemaining - 1 ≠ 0) : (autofillStep s).fbSel = s.fbSel := by
  have written := writeWord_eq s (backBank s) (s.vdp.autofillAddress.toNat % Config.bankWords) .word s.vdp.autofillData
  rw [autofillStep, autofillAdvance_fbSel] <;> rw [written]
  exact h

section
variable {s t : State} {n : Nat} (h : Filled s n t)
include h

theorem Filled.address : t.vdp.autofillAddress.toNat % 65536 = fillIndex s n := by
  rw [h.vdp, fillIndex, BitVec.toNat_add, BitVec.toNat_ofNat]
  omega

theorem Filled.remaining : t.vdp.autofillRemaining - 1 = s.vdp.autofillRemaining - BitVec.ofNat 8 (n + 1) := by
  rw [h.vdp, BitVec.ofNat_add]
  exact BitVec.sub_sub _ _ _

variable (hn : n < s.vdp.autofillRemaining.toNat)
include hn

theorem Filled.active : t.vdp.autofillActive = true := by
  rw [h.vdp]
  exact decide_eq_true hn

theorem Filled.backBank_eq : backBank t = backBank s := by
  rw [backBank, backBank, h.bank hn]

/-- The next step writes word `n` of the fill. -/
theorem Filled.step_mem : (autofillStep t).mem =
    (writeWord t (backBank s) (fillIndex s n) .word s.vdp.autofillData).mem := by
  have data : t.vdp.autofillData = s.vdp.autofillData := by rw [h.vdp]
  rw [autofillStep_eq, h.backBank_eq hn, h.address, data]

theorem Filled.step_vdp : (autofillStep t).vdp = { s.vdp with
    autofillAddress := s.vdp.autofillAddress + BitVec.ofNat 16 (n + 1)
    autofillRemaining := s.vdp.autofillRemaining - BitVec.ofNat 8 (n + 1)
    autofillActive := decide (n + 1 < s.vdp.autofillRemaining.toNat) } := by
  have address : t.vdp.autofillAddress + 1 = s.vdp.autofillAddress + BitVec.ofNat 16 (n + 1) := by
    rw [h.vdp, BitVec.ofNat_add]
    exact BitVec.add_assoc _ _ _
  have active : (t.vdp.autofillActive && t.vdp.autofillRemaining - 1 != 0) =
      decide (n + 1 < s.vdp.autofillRemaining.toNat) := by
    rw [h.active hn, h.remaining, Bool.true_and, Bool.eq_iff_iff, bne_iff_ne, decide_eq_true_iff]
    exact remaining_step_ne_zero hn
  rw [autofillStep_eq]
  dsimp only
  rw [address, active, h.remaining, h.vdp]

/-- A fill with words left steps, and has then written one word more. -/
theorem Filled.step : ∃ u, exec .autofillStep t = .next u ∧ Filled s (n + 1) u := by
  have powerOns : (autofillStep t).powerOns = t.powerOns := by rw [autofillStep_eq]
  have small := s.vdp.autofillRemaining.isLt
  have distinct (k : Nat) (hk : k < n) : fillIndex s k ≠ fillIndex s n := by
    have hbits : 2 ^ Config.aflenBits = 256 := rfl
    unfold fillIndex
    omega
  refine ⟨setResult (autofillStep t) .none, whenEnabled_next.mpr ⟨h.active hn, rfl⟩, h.step_vdp hn, fun more => ?_,
    fun k hk => ?_, fun x away => ?_⟩
  · have left := (remaining_step_ne_zero hn).mpr more
    rw [← h.remaining] at left
    exact (autofillStep_fbSel left).trans (h.bank hn)
  · refine (readWord_congr (h.step_mem hn) powerOns _ _).trans ?_
    rcases Nat.lt_succ_iff_lt_or_eq.mp hk with hlt | rfl
    · rw [readWord_writeWord_other _ _ _ _ _ _ (distinct k hlt), h.stored k hlt]
    · rw [readWord_writeWord_same]
      exact joinBytes_hi_lo _
  · obtain ⟨even, odd⟩ := away n (Nat.lt_succ_self n)
    refine (readByte_congr (h.step_mem hn) powerOns x).trans ?_
    rw [readByte_writeWord_other _ _ _ _ _ _ even odd]
    exact h.others x fun k hk => away k (Nat.lt_succ_of_lt hk)

end

/-- The steps of a fill, as many as words are left or fewer. -/
theorem autofill_run {s : State} (hactive : s.vdp.autofillActive = true) (hleft : s.vdp.autofillRemaining ≠ 0) (n : Nat)
    (hn : n ≤ s.vdp.autofillRemaining.toNat) : ∃ t, execTimes .autofillStep n s = .next t ∧ Filled s n t := by
  induction n with
  | zero => exact ⟨s, rfl, .zero hactive hleft⟩
  | succ n ih =>
    obtain ⟨t, run, filled⟩ := ih (Nat.le_of_succ_le hn)
    obtain ⟨u, last, filled'⟩ := filled.step hn
    exact ⟨u, execTimes_succ_last run last, filled'⟩

/-- Settles O44, by induction on the number of steps: what they have written is `Filled`. -/
theorem autofillWritesEveryWord : Obligations.AutofillWritesEveryWord := by
  intro s n hactive hleft hn
  obtain ⟨t, run, filled⟩ := autofill_run hactive hleft n hn
  refine ⟨t, run, filled.vdp, filled.stored, filled.others, fun done => ?_⟩
  have idle : t.vdp.autofillActive = false := by
    rw [filled.vdp]
    exact decide_eq_false (Nat.not_lt.mpr done.ge)
  show whenEnabled t.vdp.autofillActive _ = _
  rw [idle]
  rfl

end Sys2Proof.VdpProofs
end

section
/-! The scanline renderer (43_vdp.md R256 to R262). -/

namespace Sys2Proof.VdpProofs
open Sys2Proof.Machine Sys2Proof.Laws Sys2Proof.StateProofs

/- Elaborate these proofs one after the other. All at once, while the kernel still checks the text above, they can need
more threads than the check's limit on memory has room for. -/
set_option deprecated.oldSectionVars true

/-! ### The buffer entry of a colour -/

/-- The colour of an entry: bits 14:0. -/
theorem low_bits_eq_masked (c : Word) : (c.extractLsb' 0 15).setWidth 32 = (c &&& 0x7FFF).setWidth 32 := by
  have mask : c.toNat &&& 0x7FFF = c.toNat % 2 ^ 15 := Nat.and_two_pow_sub_one_eq_mod c.toNat 15
  refine BitVec.eq_of_toNat_eq ?_
  rw [BitVec.toNat_setWidth, BitVec.toNat_setWidth, BitVec.extractLsb'_toNat, Nat.shiftRight_zero, BitVec.toNat_and]
  exact congrArg (· % 2 ^ 32) mask.symm

/-- The entry of a colour, put together of its parts or of masks, is the same entry (43_vdp.md R261). -/
theorem pixelEntry_eq_shownEntry (priority : Bool) (c : Word) : pixelEntry priority c = shownEntry priority c := by
  have front : (c.getLsbD 15 != priority) = (c.getLsbD 15 ^^ priority) := rfl
  have upper (b : Bool) : ((1 : BitVec 16) ++ bit b).shiftLeftZeroExtend 15 =
      0x10000 ||| (if b then 0x8000 else 0 : BitVec 32) := by
    cases b <;> rfl
  rw [pixelEntry, shownEntry, BitVec.append_def _ (c.extractLsb' 0 15), upper, BitVec.setWidth'_eq, low_bits_eq_masked,
    front]

/-! ### Plotting (43_vdp.md R261) -/

/-- Pixel `x` of the colours plotted fills its four entries. -/
theorem flatMap_plot_getElem? (priority : Bool) (colours : List Word) (x : Nat) {k : Nat} (hk : k < 4) :
    (colours.flatMap (plot priority))[4 * x + k]? = colours[x]?.map (pixelEntry priority) := by
  induction colours generalizing x with
  | nil => rfl
  | cons c rest ih =>
    have four : (plot priority c).length = 4 := List.length_replicate
    rw [List.flatMap_cons]
    cases x with
    | zero =>
      rw [Nat.mul_zero, Nat.zero_add, List.getElem?_append_left (by omega)]
      exact List.getElem?_replicate_of_lt hk
    | succ x =>
      have index : 4 * (x + 1) + k - 4 = 4 * x + k := by omega
      rw [List.getElem?_append_right (by omega), four, index]
      exact ih x

/-- The line plotted shows this colour at pixel `x`, in four entries. -/
theorem plotLine_shows (priority : Bool) {colours : List Word} (px : List (BitVec 32)) {x : Nat} {c : Word}
    (hx : colours[x]? = some c) {k : Nat} (hk : k < 4) :
    (plotLine priority colours px)[4 * x + k]? = some (shownEntry priority c) := by
  have plotted : (colours.flatMap (plot priority))[4 * x + k]? = some (shownEntry priority c) := by
    rw [flatMap_plot_getElem? priority colours x hk, hx, Option.map_some, pixelEntry_eq_shownEntry]
  obtain ⟨inside, -⟩ := List.getElem?_eq_some_iff.mp plotted
  rw [plotLine, List.getElem?_append_left inside, plotted]

/-! ### The three renderers -/

theorem renderDirect_getElem? (s : State) (base : Nat) {x : Nat} (hx : x < linePixels) :
    (renderDirect s base)[x]? = some (shownWord s (base + x)) := by
  rw [renderDirect, List.getElem?_map, List.getElem?_range hx]
  rfl

/-- The 4-bit index of a source pixel (43_vdp.md R258). -/
theorem packedIndex_eq (w : Word) (p : Nat) :
    packedIndex w p = if p % 2 = 0 then w.toNat / 16 % 16 else w.toNat % 16 := apply_ite (· % 16) _ _ _

theorem renderPacked_getElem? (s : State) (base : Nat) {x : Nat} (hx : x < linePixels) :
    let p := if s.vdp.latch.dotshift then x + 1 else x
    let w := (shownWord s (base + p / 2)).toNat
    (renderPacked s base)[x]? = some (readWord s .palette (if p % 2 = 0 then w / 16 % 16 else w % 16)) := by
  rw [renderPacked, List.getElem?_map, List.getElem?_range hx]
  dsimp only [Option.map_some]
  cases s.vdp.latch.dotshift
  · rw [← packedIndex_eq]
    rfl
  · rw [← packedIndex_eq]
    rfl

/-- The pixels of a span (43_vdp.md R260). -/
def spanLength (s : State) (a : Nat) : Nat := (hiByte (shownWord s a)).toNat + 1

/-- The spans from `a` on, after the one at `a`. -/
theorem spanStart_succ (s : State) (a n : Nat) : spanStart s a (n + 1) = spanLength s a + spanStart s (a + 1) n := by
  have shift : (fun k => (hiByte (shownWord s (a + (k + 1)))).toNat + 1) =
      fun k => (hiByte (shownWord s (a + 1 + k))).toNat + 1 := by
    funext k
    rw [Nat.add_right_comm, Nat.add_assoc]
  rw [spanStart, List.range_succ_eq_map, List.map_cons, List.sum_cons, List.map_map]
  exact congrArg (fun lengths => spanLength s a + ((List.range n).map lengths).sum) shift

theorem rleColours_none (s : State) (spans a : Nat) : rleColours s spans a 0 = [] := by
  cases spans <;> rfl

/-- A span and what follows it, with room for `left` pixels. -/
theorem rleColours_succ (s : State) (spans a left : Nat) : rleColours s (spans + 1) a left =
    List.replicate (min (spanLength s a) left) (readWord s .palette (loByte (shownWord s a)).toNat) ++
      rleColours s spans (a + 1) (left - min (spanLength s a) left) := by
  rw [rleColours]
  split
  · next hleft => rw [hleft, Nat.min_zero, Nat.sub_zero, rleColours_none]; rfl
  · rfl

/-- Pixel `x` has the palette entry of span `n` where that span covers it. No span is empty, so as many spans as pixels
are wanted suffice. -/
theorem rleColours_getElem? (s : State) {spans a left x n : Nat} (enough : left ≤ spans) (hx : x < left)
    (hstart : spanStart s a n ≤ x) (hend : x < spanStart s a (n + 1)) :
    (rleColours s spans a left)[x]? = some (readWord s .palette (loByte (shownWord s (a + n))).toNat) := by
  induction spans generalizing a left x n with
  | zero => omega
  | succ spans ih =>
    have makes : 1 ≤ spanLength s a := Nat.le_add_left 1 _
    rw [rleColours_succ]
    rw [spanStart_succ] at hend
    cases n with
    | zero =>
      have first : x < spanLength s a := hend
      rw [List.getElem?_append_left (by rw [List.length_replicate]; omega)]
      exact List.getElem?_replicate_of_lt (by omega)
    | succ n =>
      rw [spanStart_succ] at hstart
      rw [List.getElem?_append_right (by rw [List.length_replicate]; omega), List.length_replicate,
        Nat.min_eq_left (by omega), ih (by omega) (by omega) (n := n) (by omega) (by omega), Nat.add_right_comm,
        Nat.add_assoc]

theorem renderRle_getElem? (s : State) (base : Nat) {n x : Nat} (hx : x < 320) (hstart : spanStart s base n ≤ x)
    (hend : x < spanStart s base (n + 1)) :
    (renderRle s base)[x]? = some (readWord s .palette (loByte (shownWord s (base + n))).toNat) :=
  rleColours_getElem? s (Nat.le_refl 320) hx hstart hend

/-! ### The line -/

theorem exec_scanline {s : State} (h : HostTurn s) (y : BitVec 9) : exec (.scanline y) s =
    .next { s with pixels := scanlineOf s y.toNat s.pixels, result := .none } := hostEvent_eq s _ h

/-- A blank line, or one beyond the active lines, leaves the buffer (43_vdp.md R256, R257). -/
theorem scanlineOf_blank {s : State} {y : Nat} (h : s.vdp.latch.mode = .blank ∨ activeLines s.vdp.latch ≤ y)
    (px : List (BitVec 32)) : scanlineOf s y px = px := if_pos h

/-- The colours of an active line, by the latched mode (43_vdp.md R256). -/
def lineColours (s : State) (base : Nat) : List Word :=
  match s.vdp.latch.mode with
  | .blank => []
  | .packed => renderPacked s base
  | .direct => renderDirect s base
  | .rle => renderRle s base

theorem scanlineOf_active {s : State} {y : Nat} (hmode : s.vdp.latch.mode ≠ .blank) (hy : y < activeLines s.vdp.latch)
    (px : List (BitVec 32)) : scanlineOf s y px =
      plotLine s.vdp.latch.priority (lineColours s (shownWord s y).toNat) px := by
  rw [scanlineOf, if_neg (not_or.mpr ⟨hmode, Nat.not_le.mpr hy⟩), lineColours]
  cases hm : s.vdp.latch.mode
  case blank => exact absurd hm hmode
  case packed | direct | rle => rfl

/-- Settles O45: each renderer's colour at pixel `x`, and what the plotted line shows of it. -/
theorem scanlinePlotsEachPixel : Obligations.ScanlinePlotsEachPixel := by
  intro s y hturn
  refine ⟨fun blank => ?_, fun hmode hy hpx => ?_⟩
  · rw [exec_scanline hturn, scanlineOf_blank blank]
  · have shows {x : Nat} {c : Word} (hc : (lineColours s (shownWord s y.toNat).toNat)[x]? = some c) {k : Nat}
        (hk : k < 4) : (scanlineOf s y.toNat s.pixels)[4 * x + k]? = some (shownEntry s.vdp.latch.priority c) := by
      rw [scanlineOf_active hmode hy]
      exact plotLine_shows _ _ hc hk
    refine ⟨_, exec_scanline hturn y, scanlineOf_length s y.toNat hpx, fun direct x hx k hk => shows ?_ hk,
      fun packed x hx k hk => shows ?_ hk, fun rle n x hx hstart hend k hk => shows ?_ hk⟩
    · rw [lineColours, direct]
      exact renderDirect_getElem? s _ hx
    · rw [lineColours, packed]
      exact renderPacked_getElem? s _ hx
    · rw [lineColours, rle]
      exact renderRle_getElem? s _ hx hstart hend

end Sys2Proof.VdpProofs
end

section
/-! # The family of the audio pipeline (spec/44_pwm.md)

The writes of the PWM registers, the sample FIFOs, the timer and the sample tick with its DC-removal filter
(44_pwm.md R290 to R306). -/

namespace Sys2Proof.PwmProofs
open Sys2Proof.Machine Sys2Proof.Laws Sys2Proof.StateProofs Sys2Proof.VdpProofs

/- Elaborate these proofs one after the other. All at once, while the kernel still checks the text above, they can need
more threads than the check's limit on memory has room for. -/
set_option deprecated.oldSectionVars true

/-! ### Writing a FIFO (44_pwm.md R295) -/

/-- The last three entries of a list. -/
def newestThree (f : List (BitVec 12)) : List (BitVec 12) := f.drop (f.length - 3)

theorem newestThree_of_length_le {f : List (BitVec 12)} (h : f.length ≤ 3) : newestThree f = f := by
  rw [newestThree, Nat.sub_eq_zero_of_le h, List.drop_zero]

/-- What the last three entries have pushed out, later entries do not bring back. -/
theorem newestThree_append (f g : List (BitVec 12)) : newestThree (newestThree f ++ g) = newestThree (f ++ g) := by
  have front : newestThree f ++ g = (f ++ g).drop (f.length - 3) := (List.drop_append_of_le_length (by omega)).symm
  rw [front, newestThree, newestThree, List.drop_drop, List.length_drop, List.length_append]
  congr 1
  omega

/-- A FIFO that held at most three entries holds the newest three of them and the sample. -/
theorem fifoPush_eq {f : List (BitVec 12)} (h : f.length ≤ 3) (v : BitVec 12) :
    fifoPush f v = newestThree (f ++ [v]) := by
  have length : (f ++ [v]).length = f.length + 1 := List.length_append
  rw [fifoPush, newestThree, length]
  by_cases full : f.length = Config.pwmFifoDepth
  · have three : f.length = 3 := full
    rw [if_pos full, three, List.drop_append_of_le_length (by omega), List.drop_one]
  · have room : f.length + 1 - 3 = 0 := by
      have depth : Config.pwmFifoDepth = 3 := rfl
      omega
    rw [if_neg full, room, List.drop_zero]

/-- The state with this FIFO and this last result. -/
def withFifo (s : State) (ch : Channel) (f : List (BitVec 12)) (r : OpResult) : State :=
  setResult { s with pwm := { s.pwm with fifo := s.pwm.fifo.set ch f } } r

theorem withFifo_withFifo (s : State) (ch : Channel) (f g : List (BitVec 12)) (q r : OpResult) :
    withFifo (withFifo s ch f q) ch g r = withFifo s ch g r := by
  cases ch <;> rfl

theorem withFifo_self (s : State) (ch : Channel) : withFifo s ch (s.pwm.fifo.get ch) s.result = s := by
  cases ch <;> rfl

@[simp] theorem withFifo_get (s : State) (ch : Channel) (f : List (BitVec 12)) (r : OpResult) :
    (withFifo s ch f r).pwm.fifo.get ch = f := PerChannel.get_set_same _ _ _

/-- `FIFO_WRITE` as an operation, whoever performs it. -/
theorem exec_fifoWrite (x : Agent) (ch : Channel) (v : BitVec 12) (s : State) :
    exec (.fifoWrite x ch v) s = .next (withFifo s ch (fifoPush (s.pwm.fifo.get ch) v) .none) := rfl

/-- Samples written one after another: by induction on the list, each write keeps the newest three. -/
theorem execAll_fifoWrite (ch : Channel) (vs : List (Agent × BitVec 12)) {s : State}
    (h : (s.pwm.fifo.get ch).length ≤ 3) : ∃ r, execAll (vs.map fun p => .fifoWrite p.1 ch p.2) s =
      .next (withFifo s ch (newestThree (s.pwm.fifo.get ch ++ vs.map Prod.snd)) r) := by
  induction vs generalizing s with
  | nil =>
    refine ⟨s.result, ?_⟩
    rw [List.map_nil, List.map_nil, List.append_nil, newestThree_of_length_le h, withFifo_self]
    rfl
  | cons p rest ih =>
    have pushed := fifoPush_eq h p.2
    have short := fifoPush_length _ p.2 h
    rw [← withFifo_get s ch (fifoPush _ p.2) .none] at short
    obtain ⟨r, run⟩ := ih short
    refine ⟨r, ?_⟩
    rw [withFifo_get, withFifo_withFifo, pushed, newestThree_append, List.append_assoc] at run
    rw [List.map_cons, execAll, exec_fifoWrite, pushed]
    exact run

/-- Settles O30. -/
theorem fifoKeepsTheNewestThree : Obligations.FifoKeepsTheNewestThree := by
  intro ch vs s h
  obtain ⟨r, run⟩ := execAll_fifoWrite ch vs h
  refine ⟨_, run, withFifo_get _ _ _ _, ?_⟩
  rw [withFifo_get]
  rfl

/-! ### The sample tick (44_pwm.md R301, R302) -/

/-- The left channel's raw sample in a tick. -/
def rawLeft (p : Pwm) : BitVec 12 := rawSample p.fifo.l p.last.l p.lmode

/-- The right channel's raw sample in a tick. -/
def rawRight (p : Pwm) : BitVec 12 := if p.mono then rawLeft p else rawSample p.fifo.r p.last.r p.rmode

/-- The filters after a tick. -/
def tickFilters (p : Pwm) : PerChannel FilterState :=
  ⟨(dcFilter.apply p.dc.l (rawLeft p)).1, (dcFilter.apply p.dc.r (rawRight p)).1⟩

/-- The filtered pair of a tick. -/
def tickPair (p : Pwm) : BitVec 16 × BitVec 16 :=
  ((dcFilter.apply p.dc.l (rawLeft p)).2, (dcFilter.apply p.dc.r (rawRight p)).2)

/-- The right channel's part of a tick, after the left one's (44_pwm.md R301): with `mono` it is not sampled. -/
theorem rightSample_eq (raw : BitVec 12) (f : List (BitVec 12)) (v : BitVec 12) (s : State) :
    (if s.pwm.mono then (raw, false, setChannel s .l f v) else route .r s.pwm.rmode (setChannel s .l f v)) =
      (if s.pwm.mono then raw else rawSample s.pwm.fifo.r s.pwm.last.r s.pwm.rmode,
        !s.pwm.mono && emptiedBy s.pwm.fifo.r s.pwm.rmode,
        setChannel (setChannel s .l f v) .r (fifoAfter s.pwm.fifo.r (rightMode s.pwm))
          (lastAfter s.pwm.fifo.r s.pwm.last.r (rightMode s.pwm))) := by
  unfold rightMode
  cases s.pwm.mono
  · exact route_eq .r s.pwm.rmode (setChannel s .l f v)
  · exact congrArg (fun u => (raw, false, u)) (setChannel_self (setChannel s .l f v) .r).symm

/-- `SAMPLE_TICK` with the filters and the pair it makes; `sampleTick_eq` says of them that there are some. -/
theorem sampleTick_eq_filtered (s : State) : sampleTick s =
    if tickEmpties s.pwm && s.pwm.dreqIRQ then irqRaiseBoth .pwm (afterTick s (tickFilters s.pwm) (tickPair s.pwm))
    else afterTick s (tickFilters s.pwm) (tickPair s.pwm) := by
  unfold sampleTick
  rw [route_eq]
  dsimp only [setChannel_pwm]
  rw [rightSample_eq]
  rfl

/-- `IRQ_RAISE` of `pwm` on both cores. -/
theorem irqRaiseBoth_pwm (s : State) :
    irqRaiseBoth .pwm s = { s with cores := ⟨withPwmActive s.cores.m, withPwmActive s.cores.s⟩ } := rfl

theorem fifoAfter_rightMode (p : Pwm) :
    fifoAfter p.fifo.r (rightMode p) = if p.mono then p.fifo.r else fifoAfter p.fifo.r p.rmode := by
  unfold rightMode
  cases p.mono <;> rfl

theorem lastAfter_rightMode (p : Pwm) :
    lastAfter p.fifo.r p.last.r (rightMode p) = if p.mono then p.last.r else lastAfter p.fifo.r p.last.r p.rmode := by
  unfold rightMode
  cases p.mono <;> rfl

/-! ### The default filter (44_pwm.md R306) -/

theorem setWidth_signExtend (x : BitVec 16) : (x.signExtend 32).setWidth 16 = x := by
  ext k hk
  rw [BitVec.getElem_setWidth, BitVec.getLsbD_signExtend, decide_eq_true (by omega), Bool.true_and, if_pos hk,
    BitVec.getLsbD_eq_getElem hk]

/-- A 32-bit value held to 16 bits. -/
theorem clamp16_toInt (y : BitVec 32) : clamp16 y.toInt =
    if y.toInt < -32768 then 0x8000 else if y.toInt > 32767 then 0x7FFF else y.extractLsb' 0 16 := by
  have narrow : BitVec.ofInt 16 y.toInt = y.extractLsb' 0 16 :=
    (BitVec.signExtend_eq_setWidth_of_le y (by decide)).trans (BitVec.setWidth_eq_extractLsb' (by decide))
  rw [clamp16, narrow]
  rfl

theorem defaultDcFilter_apply (x1 : BitVec 16) (y1 : BitVec 32) (x : BitVec 12) :
    defaultDcFilter.apply (filterState x1 y1) x =
      (filterState (x.signExtend 16) (BitVec.ofInt 32 (x.toInt - x1.toInt + y1.toInt * 255 / 256)),
        clamp16 (BitVec.ofInt 32 (x.toInt - x1.toInt + y1.toInt * 255 / 256)).toInt) := by
  have decoded : ((filterState x1 y1).getD 0 0).setWidth 16 = x1 := setWidth_signExtend x1
  unfold defaultDcFilter
  dsimp only
  rw [decoded]
  rfl

/-- Settles O33. -/
theorem sampleTickEmitsOneFilteredPair : Obligations.SampleTickEmitsOneFilteredPair := by
  refine ⟨fun s => ?_, fun f set => ?_, fun unset => ?_, rfl, fun x1 y1 x => ?_⟩
  · show procedure (sampleTick s) = _
    rw [sampleTick_eq_filtered, afterTick, pwmAfterTick, fifoAfter_rightMode, lastAfter_rightMode]
    cases tickEmpties s.pwm && s.pwm.dreqIRQ
    · rfl
    · exact congrArg procedure (irqRaiseBoth_pwm _)
  · rw [dcFilter, set]
    rfl
  · rw [dcFilter, unset]
    rfl
  · rw [defaultDcFilter_apply, clamp16_toInt, Int.shiftRight_eq_div_pow]
    rfl

/-! ### Reading and draining a FIFO (44_pwm.md R296, R297) -/

theorem exec_fifoRead (ch : Channel) (s : State) : exec (.fifoRead ch) s =
    .next (setResult (fifoRead ch s).2.2 (.sample (fifoRead ch s).1 (fifoRead ch s).2.1)) := rfl

theorem exec_fifoDrain (ch : Channel) (s : State) : exec (.fifoDrain ch) s =
    .next (setResult (fifoDrain ch s).2.2 (.sample (fifoDrain ch s).1 (fifoDrain ch s).2.1)) := rfl

theorem fifoRead_cons {ch : Channel} {s : State} {v : BitVec 12} {rest : List (BitVec 12)}
    (h : s.pwm.fifo.get ch = v :: rest) : fifoRead ch s = (v, rest.isEmpty, setChannel s ch rest v) := by
  unfold fifoRead
  rw [h]

theorem fifoRead_nil {ch : Channel} {s : State} (h : s.pwm.fifo.get ch = []) :
    fifoRead ch s = (s.pwm.last.get ch, false, s) := by
  unfold fifoRead
  rw [h]

theorem fifoDrain_append {ch : Channel} {s : State} {v : BitVec 12} {older : List (BitVec 12)}
    (h : s.pwm.fifo.get ch = older ++ [v]) : fifoDrain ch s = (v, true, setChannel s ch [] v) := by
  unfold fifoDrain
  rw [h, List.getLast?_concat]

theorem fifoDrain_nil {ch : Channel} {s : State} (h : s.pwm.fifo.get ch = []) :
    fifoDrain ch s = (s.pwm.last.get ch, false, s) := by
  unfold fifoDrain
  rw [h]
  rfl

theorem exec_fifoRead_nil {ch : Channel} {s : State} (h : s.pwm.fifo.get ch = []) :
    exec (.fifoRead ch) s = .next (setResult s (.sample (s.pwm.last.get ch) false)) := by
  rw [exec_fifoRead, fifoRead_nil h]

/-- Reads of an empty FIFO, by induction on their number: the FIFO stays empty and the last value is kept. -/
theorem execTimes_fifoRead_nil {ch : Channel} {s : State} (h : s.pwm.fifo.get ch = []) (n : Nat) :
    execTimes (.fifoRead ch) (n + 1) s = .next (setResult s (.sample (s.pwm.last.get ch) false)) := by
  induction n with
  | zero => exact execTimes_succ_last rfl (exec_fifoRead_nil h)
  | succ n ih => exact execTimes_succ_last ih (exec_fifoRead_nil h)

/-- Settles O31. -/
theorem fifoReadHoldsTheLastSample : Obligations.FifoReadHoldsTheLastSample := by
  refine fun ch s => ⟨fun v rest h => ?_, execTimes_fifoRead_nil, ?_⟩
  · rw [exec_fifoRead, fifoRead_cons h]
    rfl
  · cases ch <;> rfl

/-! ### The timer (44_pwm.md R300) -/

theorem pwmTimerStep_below {s : State} (h : s.pwm.counter + 1 < s.pwm.periods) : pwmTimerStep s = { s with
    pwm := { s.pwm with cycle := s.pwm.cycle + 1, counter := s.pwm.counter + 1 } } := if_neg (BitVec.not_le.mpr h)

theorem pwmTimerStep_reached {s : State} (h : s.pwm.periods ≤ s.pwm.counter + 1) : pwmTimerStep s =
    sampleTick { s with pwm := { s.pwm with cycle := s.pwm.cycle + 1, counter := 0 } } := if_pos h

/-- Settles O32. -/
theorem drainAndTimerSteps : Obligations.DrainAndTimerSteps := by
  refine ⟨fun ch s => ⟨fun older v h => ?_, fun h => ?_⟩, fun s => ⟨fun below => ?_, fun reached => ?_⟩⟩
  · rw [exec_fifoDrain, fifoDrain_append h]
    rfl
  · rw [exec_fifoDrain, fifoDrain_nil h]
    rfl
  · exact congrArg procedure (pwmTimerStep_below below)
  · exact congrArg procedure (pwmTimerStep_reached reached)

/-! ### The registers (44_pwm.md R290 to R293) -/

/-- The low 12 bits of a word made of two bytes. -/
theorem joinBytes_low12 (h l : Byte) : (joinBytes h l).extractLsb' 0 12 = h.extractLsb' 0 4 ++ l :=
  calc (h ++ l).extractLsb' 0 12
    _ = (h ++ l).extractLsb' 8 4 ++ (h ++ l).extractLsb' 0 8 :=
      (BitVec.extractLsb'_append_extractLsb'_eq_extractLsb' (start₁ := 0) (len₁ := 8) (len₂ := 4) rfl).symm
    _ = h.extractLsb' 0 4 ++ l := by rw [field_high h l (Nat.le_refl 8), append_low]

theorem hiByte_low4 (v : Word) : (hiByte v).extractLsb' 0 4 = v.extractLsb' 8 4 := by
  ext k hk
  have inByte : k < 8 := by omega
  simp [hiByte, inByte]

/-- `PWMCYC` merged lane by lane, bits 15:12 dropped. -/
theorem merge_low12 (l : Lanes) (c : BitVec 12) (d : Word) : (l.merge (c.setWidth 16) d).extractLsb' 0 12 =
    match l with
    | .word => d.extractLsb' 0 12
    | .upper => d.extractLsb' 8 4 ++ c.extractLsb' 0 8
    | .lower => c.extractLsb' 8 4 ++ d.extractLsb' 0 8 := by
  cases l
  case word =>
    have whole : Lanes.merge .word (c.setWidth 16) d = d := joinBytes_hi_lo d
    rw [whole]
  case upper =>
    have kept : loByte (c.setWidth 16) = c.extractLsb' 0 8 := BitVec.extractLsb'_setWidth_of_le (by decide)
    have merged : Lanes.merge .upper (c.setWidth 16) d = joinBytes (hiByte d) (loByte (c.setWidth 16)) := rfl
    rw [merged, joinBytes_low12, hiByte_low4, kept]
  case lower =>
    have kept : (c.setWidth 16).extractLsb' 8 4 = c.extractLsb' 8 4 := BitVec.extractLsb'_setWidth_of_le (by decide)
    have merged : Lanes.merge .lower (c.setWidth 16) d = joinBytes (hiByte (c.setWidth 16)) (loByte d) := rfl
    rw [merged, joinBytes_low12, hiByte_low4, kept]
    rfl

theorem pwmctlWrite_eq (l : Lanes) (d : Word) (s : State) : pwmctlWrite l d s = { s with
    pwm := { s.pwm with
      lmode := if l = .upper then s.pwm.lmode else d.extractLsb' 0 2
      rmode := if l = .upper then s.pwm.rmode else d.extractLsb' 2 2
      mono := if l = .upper then s.pwm.mono else d.getLsbD 4
      dreqIRQ := if l = .upper then s.pwm.dreqIRQ else d.getLsbD 7
      timer := if l = .lower then s.pwm.timer else d.extractLsb' 8 4
      periods := if l = .lower then s.pwm.periods else periodsOf (d.extractLsb' 8 4)
      counter := if l = .lower then s.pwm.counter else 0 } } := by
  cases l <;> rfl

theorem sampleWrite_byte {l : Lanes} (h : l ≠ .word) (ch : Channel) (d : Word) (s : State) :
    sampleWrite ch l d s = s := by
  cases l
  case word => exact absurd rfl h
  case upper | lower => rfl

theorem sampleWrite_word (ch : Channel) (d : Word) (s : State) :
    sampleWrite ch .word d s = fifoWrite ch (d.extractLsb' 0 12) s := rfl

/-- What O29 says of a sample register, given its write rule. -/
theorem exec_sampleWrite {j : Instr} {ch : Channel} {l : Lanes} {d : Word} {s : State}
    (write : exec j s = .next { sampleWrite ch l d s with result := .bus 0 0 }) :
    (l ≠ .word → exec j s = .next { s with result := .bus 0 0 }) ∧
      (l = .word → ∃ t, exec (.fifoWrite .h ch (d.extractLsb' 0 12)) s = .next t ∧
        exec j s = .next { t with result := .bus 0 0 }) := by
  refine ⟨fun byte => ?_, fun word => ?_⟩
  · rwa [sampleWrite_byte byte] at write
  · subst word
    rw [sampleWrite_word] at write
    exact ⟨_, exec_fifoWrite .h ch _ s, write⟩

/-- Settles O29. -/
theorem pwmRegisterWrites : Obligations.PwmRegisterWrites := by
  refine ⟨fun i l d s hm => ⟨?_, ?_⟩, fun i l d s hm => List.forall_mem_cons.mpr
    ⟨exec_sampleWrite (exec_reg_write .pwml i l d s hm),
      List.forall_mem_singleton.mpr (exec_sampleWrite (exec_reg_write .pwmr i l d s hm))⟩⟩
  · have write := exec_reg_write .pwmctl i l d s hm
    rwa [regWrite, pwmctlWrite_eq] at write
  · have write := exec_reg_write .pwmcyc i l d s hm
    rw [regWrite, pwmcycWrite, merge_low12] at write
    exact write

end Sys2Proof.PwmProofs
end

section
/-! # The family of the DREQ controller (spec/45_dreq.md)

The writes of the DREQ registers, the transfer step, and the VRAM-fill transfer (45_dreq.md R320 to R325). -/

namespace Sys2Proof.DreqProofs
open Sys2Proof.Machine Sys2Proof.Laws Sys2Proof.StateProofs Sys2Proof.MemoryProofs Sys2Proof.SchedulerProofs

/- Elaborate these proofs one after the other. All at once, while the kernel still checks the text above, they can need
more threads than the check's limit on memory has room for. -/
set_option deprecated.oldSectionVars true

/-! ### The registers -/

section
variable {s : State} (l : Lanes) (d : Word)

theorem dreqctlWrite_ignored (h : l = .upper ∨ s.dreq.active = true) : dreqctlWrite l d s = s := by
  refine if_neg fun takes => ?_
  obtain ⟨lower, idle⟩ := Bool.and_eq_true_iff.mp takes
  rcases h with upper | active
  · exact ne_upper_of_lower lower upper
  · rw [active] at idle
    exact nomatch idle

/-- The write that starts a transfer: with length 0 nothing starts (45_dreq.md R320). -/
theorem dreqctlWrite_idle (lower : l ≠ .upper) (idle : s.dreq.active = false) : dreqctlWrite l d s = { s with
    dreq := { s.dreq with
      vram := d.getLsbD 0
      dma := if d.getLsbD 1 = true ∧ s.dreq.length ≠ 0 then true else s.dreq.dma
      active := decide (d.getLsbD 1 = true ∧ s.dreq.length ≠ 0) } } := by
  have takes : (l.l && !s.dreq.active) = true := by
    rw [lower_of_ne_upper lower, idle]
    rfl
  have starts : (d.getLsbD 1 && s.dreq.length != 0) = true ↔ d.getLsbD 1 = true ∧ s.dreq.length ≠ 0 := by
    rw [Bool.and_eq_true_iff, bne_iff_ne]
  rw [dreqctlWrite, if_pos takes]
  dsimp only
  by_cases start : d.getLsbD 1 = true ∧ s.dreq.length ≠ 0
  · rw [if_pos (starts.mpr start), if_pos start, decide_eq_true start]
  · rw [if_neg (mt starts.mp start), if_neg start, decide_eq_false start, ← idle]

/-- The upper lane of a high register is not held, so only the lower lane reaches bits 23:16 (45_dreq.md R321). -/
theorem mergeHigh_eq (v : BitVec 24) : mergeHigh l v d =
    (if l = .upper then v.extractLsb' 16 8 else d.extractLsb' 0 8) ++ v.extractLsb' 0 16 := by
  have held : loByte ((v.extractLsb' 16 8).setWidth 16) = v.extractLsb' 16 8 :=
    (BitVec.extractLsb'_setWidth_of_le (by decide)).trans (field_whole _)
  unfold mergeHigh Lanes.merge
  rw [loByte_joinBytes]
  cases l
  case upper => exact congrArg (· ++ _) held
  case word | lower => rfl

end

/-- An address or length register: its write is ignored while a transfer is active, and else changes its field. -/
theorem exec_dreqField_write {i : Initiator} {r : Reg} {l : Lanes} {d : Word} {f : Dreq → Dreq}
    (rule : ∀ s, regWrite i r l d s = dreqFieldWrite f s) {s : State} (hm : MayIssue i s) :
    (s.dreq.active = true → exec (r.writeInstr i l d) s = .next { s with result := .bus 0 0 }) ∧
      (s.dreq.active = false →
        exec (r.writeInstr i l d) s = .next { s with dreq := f s.dreq, result := .bus 0 0 }) := by
  rw [exec_reg_write r i l d s hm, rule, dreqFieldWrite]
  refine ⟨fun active => ?_, fun idle => ?_⟩
  · rw [if_pos active]
  · rw [if_neg (Bool.eq_false_iff.mp idle)]

/-- Settles O35. -/
theorem dreqWritesTakeEffectWhileIdle : Obligations.DreqWritesTakeEffectWhileIdle := by
  refine ⟨fun i l d s hm => ?_, fun i l d s hm => ?_⟩
  · have write := exec_reg_write .dreqctl i l d s hm
    refine ⟨fun ignored => ?_, fun lower idle => ?_⟩
    · rwa [regWrite, dreqctlWrite_ignored l d ignored] at write
    · rwa [regWrite, dreqctlWrite_idle l d lower idle] at write
  · have srch := exec_dreqField_write (r := .dreqsrch) (l := l) (d := d)
      (f := fun q => { q with source := mergeHigh l q.source d }) (fun _ => rfl) hm
    have srcl := exec_dreqField_write (r := .dreqsrcl) (l := l) (d := d)
      (f := fun q => { q with source := mergeLow l q.source d }) (fun _ => rfl) hm
    have dsth := exec_dreqField_write (r := .dreqdsth) (l := l) (d := d)
      (f := fun q => { q with target := mergeHigh l q.target d }) (fun _ => rfl) hm
    have dstl := exec_dreqField_write (r := .dreqdstl) (l := l) (d := d)
      (f := fun q => { q with target := mergeLow l q.target d }) (fun _ => rfl) hm
    have len := exec_dreqField_write (r := .dreqlen) (l := l) (d := d)
      (f := fun q => { q with length := l.merge q.length d }) (fun _ => rfl) hm
    rw [mergeHigh_eq] at srch dsth
    refine ⟨fun active => ?_,
      fun idle => ⟨srch.2 idle, srcl.2 idle, dsth.2 idle, dstl.2 idle, len.2 idle⟩⟩
    simp only [List.forall_mem_cons]
    exact ⟨srch.1 active, srcl.1 active, dsth.1 active, dstl.1 active, len.1 active, List.forall_mem_nil _⟩

/-! ### What a write leaves of the transfer in progress -/

theorem dreq_ite {c : Prop} [Decidable c] {x y : State} {q : Dreq} (hx : x.dreq = q) (hy : y.dreq = q) :
    (if c then x else y).dreq = q := by
  split
  · exact hx
  · exact hy

/-- While a transfer is active no register write reaches the DREQ controller (45_dreq.md R320, R321). -/
theorem regWrite_dreq {s : State} (active : s.dreq.active = true) (i : Initiator) (r : Reg) (l : Lanes) (d : Word) :
    (regWrite i r l d s).dreq = s.dreq := by
  have banked (f : IrqCtl → IrqCtl) : (updateBanked i f s).dreq = s.dreq := by
    unfold updateBanked
    split <;> rfl
  unfold regWrite
  cases r
  case irqstat | hperiod | hcounter | mbox | pwmctl | pwmcyc => rfl
  case irqen | irqack => exact dreq_ite (banked _) rfl
  case adapter =>
    refine dreq_ite (dreq_ite ?_ rfl) rfl
    rw [loadEntry_eq, loadEntry_eq]
    rfl
  case cmdreq => exact dreq_ite (dreq_ite (dreq_ite rfl rfl) (dreq_ite rfl rfl)) rfl
  case pwml | pwmr | vdpmode | vdpshift | aflen | afaddr | afdata => exact dreq_ite rfl rfl
  case dreqctl => exact congrArg State.dreq (dreqctlWrite_ignored l d (.inr active))
  case dreqsrch | dreqsrcl | dreqdsth | dreqdstl | dreqlen => exact congrArg State.dreq (if_pos active)
  case fbctl =>
    refine dreq_ite ?_ rfl
    rw [selectFb_eq]

theorem writeWord_dreq (s : State) (m : MemId) (w : Nat) (l : Lanes) (d : Word) :
    (writeWord s m w l d).dreq = s.dreq := by rw [writeWord_eq]

theorem targetWrite_dreq {s : State} (active : s.dreq.active = true) (i : Initiator) (l : Lanes) (g : Target)
    (d : Word) : (targetWrite i l g d s).dreq = s.dreq := by
  cases g with
  | reg r => exact regWrite_dreq active i r l d
  | palette | vram | sdram => exact writeWord_dreq _ _ _ _ _
  | bootrom | reserved | external => rfl

/-- The write of a transfer step leaves the transfer itself as it is. -/
theorem dreqStore_dreq {s : State} (active : s.dreq.active = true) (v : Word) : (dreqStore v s).dreq = s.dreq :=
  dreq_ite (writeWord_dreq _ _ _ _ _) (targetWrite_dreq active _ _ _ _)

/-! ### The transfer step (45_dreq.md R322, R323) -/

/-- Of two results recorded the last one stays. -/
theorem setResult_setResult (s : State) (q r : OpResult) : setResult (setResult s q) r = setResult s r := rfl

theorem exec_dreqStep_idle {s : State} (idle : s.dreq.active = false) : exec .dreqStep s = .refused .notEnabled := by
  show whenEnabled s.dreq.active _ = _
  rw [idle]
  rfl

theorem exec_dreqStep_active {s : State} (active : s.dreq.active = true) :
    exec .dreqStep s = .next (setResult (dreqStep s) .none) := whenEnabled_next.mpr ⟨active, rfl⟩

/-- With the FIFO empty the word read is the word written (10_state.md R73 (g)). -/
theorem dreqStep_empty {s : State} (empty : s.dreq.fifo = []) : dreqStep s = dreqAdvance
    (dreqStore (busRead .dreq .word (dreqAddr s.dreq.source) s).1
      (busRead .dreq .word (dreqAddr s.dreq.source) s).2.2) := by
  obtain ⟨e, read⟩ := busRead_changes .dreq .word (dreqAddr s.dreq.source) s
  have drained : (busRead .dreq .word (dreqAddr s.dreq.source) s).2.2.dreq.fifo = [] := by
    rw [read]
    exact empty
  unfold dreqStep
  dsimp only
  rw [dreqThrough_empty _ _ drained]

theorem last_word_iff (n : BitVec 16) : n - 1 = 0 ↔ n = 1 := sub_eq_zero

theorem dreqAdvance_more {s : State} (h : s.dreq.length ≠ 1) : dreqAdvance s = { s with dreq := { s.dreq with
    source := s.dreq.source + 1
    target := s.dreq.target + 1
    length := s.dreq.length - 1 } } := if_neg (mt (last_word_iff _).mp h)

/-- The last word moved: the transfer ends and a queued swap is made (45_dreq.md R325). -/
theorem dreqAdvance_last {s : State} (h : s.dreq.length = 1) : dreqAdvance s = fbCommit { s with
    dreq := { s.dreq with
      source := s.dreq.source + 1
      target := s.dreq.target + 1
      length := 0
      active := false
      dma := false } } := by
  have none : s.dreq.length - 1 = 0 := (last_word_iff _).mpr h
  rw [dreqAdvance]
  dsimp only
  rw [if_pos none, none]

theorem dreqAddr_toNat (x : BitVec 24) : (dreqAddr x).toNat = 2 * x.toNat := by
  rw [dreqAddr, toNat_append_eq, toNat_append_eq]
  simp [Nat.mul_comm]

theorem dreqAddr_eq_shift (x : BitVec 24) : dreqAddr x = x.setWidth 32 <<< 1 := by
  have hx := x.isLt
  refine BitVec.eq_of_toNat_eq ?_
  rw [dreqAddr_toNat, BitVec.toNat_shiftLeft, BitVec.toNat_setWidth, Nat.shiftLeft_eq]
  omega

/-- The write of a transfer step as an operation: a store into the writable bank in VRAM-fill mode, else a DREQ write,
which also records its result. -/
theorem dreqStore_cases (u : State) (v : Word) : ∃ r,
    (u.dreq.vram = true → setResult (dreqStore v u) r = { u with mem := (dreqStore v u).mem } ∧
      WordStored u (setResult (dreqStore v u) r) (backBank u) (u.dreq.target.toNat % 65536) .word v) ∧
    (u.dreq.vram = false →
      exec (.wr16 .dreq (u.dreq.target.setWidth 32 <<< 1) v) u = .next (setResult (dreqStore v u) r)) := by
  cases mode : u.dreq.vram
  case true =>
    have store : dreqStore v u = writeWord u (backBank u) (u.dreq.target.toNat % 65536) .word v := if_pos mode
    refine ⟨u.result, fun _ => ⟨?_, ?_⟩, nofun⟩
    · rw [store, writeWord_eq]
      rfl
    · rw [store]
      exact wordStored_writeWord u _ _ .word v
  case false =>
    have store : dreqStore v u = (busWrite .dreq .word (dreqAddr u.dreq.target) v u).2 :=
      if_neg (Bool.eq_false_iff.mp mode)
    have write := exec_writeOn_busWrite (mayIssue_dreq u) .word (dreqAddr u.dreq.target) v
    rw [← store, dreqAddr_eq_shift] at write
    exact ⟨_, nofun, fun _ => write⟩

/-- The step is its read and its write, performed by themselves, and then the count: none of them reads the result that
the one before it recorded. -/
theorem exec_dreqStep_parts {s : State} (active : s.dreq.active = true) (empty : s.dreq.fifo = []) :
    ∃ (v : Word) (w : Nat) (u : State),
      exec (.rd16 .dreq (s.dreq.source.setWidth 32 <<< 1)) s = .next u ∧
      u = { s with extLog := u.extLog, result := .bus v w } ∧
      ∀ r, exec .dreqStep s = .next (setResult (dreqAdvance (setResult (dreqStore v u) r)) .none) := by
  rw [← dreqAddr_eq_shift]
  refine ⟨(busRead .dreq .word (dreqAddr s.dreq.source) s).1, (busRead .dreq .word (dreqAddr s.dreq.source) s).2.1, _,
    exec_readOn_busRead (mayIssue_dreq s) .word _, ?_, fun r => ?_⟩
  · rw [busRead_eq]
    rfl
  · rw [exec_dreqStep_active active, dreqStep_empty empty, dreqStore_ignores, dreqAdvance_ignores,
      dreqAdvance_ignores, setResult_setResult, setResult_setResult]

/-- Settles O36. -/
theorem dreqStepIsAReadAndAWrite : Obligations.DreqStepIsAReadAndAWrite := by
  refine fun s => ⟨exec_dreqStep_idle, fun active empty => ?_⟩
  obtain ⟨v, w, u, read, hu, step⟩ := exec_dreqStep_parts active empty
  obtain ⟨r, fills, writes⟩ := dreqStore_cases u v
  have result : u.result = .bus v w := by rw [hu]
  have dreq : u.dreq = s.dreq := by rw [hu]
  have bank : backBank u = backBank s := by rw [hu]; rfl
  have moved : (setResult (dreqStore v u) r).dreq = s.dreq := (dreqStore_dreq (dreq ▸ active) v).trans dreq
  rw [dreq] at writes
  refine ⟨v, w, u, _, _, read, result, fun vram => ?_, writes, step r, fun more => ?_, fun last => ?_⟩
  · obtain ⟨frame, stored⟩ := fills (dreq ▸ vram)
    rw [dreq, bank] at stored
    exact ⟨frame, stored⟩
  · rw [dreqAdvance_more (moved ▸ more), moved]
    rfl
  · rw [dreqAdvance_last (moved ▸ last), moved]
    rfl

end Sys2Proof.DreqProofs
end

section
/-! The VRAM-fill transfer run to its end (45_dreq.md R322 to R325). What its steps have done so far is `Transferred`,
kept by each step. -/

namespace Sys2Proof.DreqProofs
open Sys2Proof.Machine Sys2Proof.Laws Sys2Proof.StateProofs Sys2Proof.MemoryProofs Sys2Proof.VdpProofs

/- Elaborate these proofs one after the other. All at once, while the kernel still checks the text above, they can need
more threads than the check's limit on memory has room for. -/
set_option deprecated.oldSectionVars true

/-! ### Counting down -/

theorem toNat_left {r : BitVec 16} {n : Nat} (h : n ≤ r.toNat) : (r - BitVec.ofNat 16 n).toNat = r.toNat - n := by
  have hr := r.isLt
  rw [BitVec.toNat_sub, BitVec.toNat_ofNat]
  omega

/-- After one more step words are left exactly where the count says so. -/
theorem left_step_ne_zero {r : BitVec 16} {n : Nat} (h : n < r.toNat) :
    r - BitVec.ofNat 16 (n + 1) ≠ 0 ↔ n + 1 < r.toNat := by
  have left := toNat_left (r := r) (n := n + 1) h
  have zero : r - BitVec.ofNat 16 (n + 1) = 0 ↔ r.toNat - (n + 1) = 0 := by
    rw [← left, ← BitVec.toNat_inj]
    rfl
  rw [Ne, zero]
  omega

/-! ### One word from SDRAM into the writable bank -/

/-- A step of a VRAM-fill transfer whose source word lies in SDRAM (20_memory.md R84). -/
theorem dreqStep_fill {s : State} (vram : s.dreq.vram = true) (empty : s.dreq.fifo = [])
    (low : 0x30000 ≤ s.dreq.source.toNat) (high : s.dreq.source.toNat < 0x50000) :
    dreqStep s = dreqAdvance (writeWord s (backBank s) (s.dreq.target.toNat % 65536) .word
      (readWord s .sdram (s.dreq.source.toNat - 0x30000))) := by
  have addr := dreqAddr_toNat s.dreq.source
  have index : sdramIndex (dreqAddr s.dreq.source) = s.dreq.source.toNat - 0x30000 := by
    unfold sdramIndex
    omega
  rw [dreqStep_empty empty, busRead_sdram .dreq .word (by omega) (by omega), mask_word, index]
  exact congrArg dreqAdvance (if_pos vram)

/-- No byte of SDRAM lies in a bank. -/
theorem sdram_ne_bank (s : State) {w : Nat} (hw : w < 65536) {x : Nat} (hx : MemId.sdram.base ≤ x) :
    x ≠ (backBank s).loc (2 * w) ∧ x ≠ (backBank s).loc (2 * w + 1) := by
  have bank := backBank_base s
  have base : MemId.sdram.base = 0x300000 := rfl
  unfold MemId.loc
  omega

/-! ### The transfer -/

/-- An active VRAM-fill transfer whose source words lie in SDRAM. -/
structure FromSdram (s : State) : Prop where
  active : s.dreq.active = true
  dma : s.dreq.dma = true
  vram : s.dreq.vram = true
  empty : s.dreq.fifo = []
  low : 0x30000 ≤ s.dreq.source.toNat
  high : s.dreq.source.toNat + s.dreq.length.toNat ≤ 0x50000
  left : s.dreq.length ≠ 0

/-- The index in its bank of the place of word `k` of the transfer. -/
def targetIndex (s : State) (k : Nat) : Nat := (s.dreq.target.toNat + k) % 65536

/-- Word `k` of the transfer. -/
def wordToMove (s : State) (k : Nat) : Word := readWord s .sdram (s.dreq.source.toNat - 0x30000 + k)

/-- `n` steps of the transfer of `s` have led to `t`: they have stored its first `n` words, and the bank has not moved
while words are left. -/
structure Transferred (s : State) (n : Nat) (t : State) : Prop where
  dreq : t.dreq = { s.dreq with
    source := s.dreq.source + BitVec.ofNat 24 n
    target := s.dreq.target + BitVec.ofNat 24 n
    length := s.dreq.length - BitVec.ofNat 16 n
    active := decide (n < s.dreq.length.toNat)
    dma := decide (n < s.dreq.length.toNat) }
  bank : n < s.dreq.length.toNat → t.fbSel = s.fbSel
  stored : ∀ k < n, readWord t (backBank s) (targetIndex s k) = wordToMove s k
  others : ∀ x, (∀ k < n, x ≠ (backBank s).loc (2 * targetIndex s k) ∧
    x ≠ (backBank s).loc (2 * targetIndex s k + 1)) → readByte t x = readByte s x

theorem targetIndex_lt (s : State) (k : Nat) : targetIndex s k < 65536 := Nat.mod_lt _ (by decide)

theorem Transferred.zero {s : State} (hs : FromSdram s) : Transferred s 0 s where
  dreq := by
    have left : 0 < s.dreq.length.toNat := Nat.pos_of_ne_zero fun h => hs.left (BitVec.eq_of_toNat_eq h)
    have source : s.dreq.source + BitVec.ofNat 24 0 = s.dreq.source := BitVec.add_zero _
    have target : s.dreq.target + BitVec.ofNat 24 0 = s.dreq.target := BitVec.add_zero _
    have length : s.dreq.length - BitVec.ofNat 16 0 = s.dreq.length := BitVec.sub_zero _
    rw [decide_eq_true left, source, target, length]
    exact congrArg₂ (fun a m => { s.dreq with active := a, dma := m }) hs.active hs.dma
  bank _ := rfl
  stored k hk := absurd hk (Nat.not_lt_zero k)
  others _ _ := rfl

section
variable {s t : State} {n : Nat} (h : Transferred s n t)
include h

theorem Transferred.setResult (r : OpResult) : Transferred s n (setResult t r) :=
  ⟨h.dreq, h.bank, h.stored, h.others⟩

theorem Transferred.target : t.dreq.target.toNat % 65536 = targetIndex s n := by
  rw [h.dreq, targetIndex, BitVec.toNat_add, BitVec.toNat_ofNat]
  omega

theorem Transferred.length : t.dreq.length - 1 = s.dreq.length - BitVec.ofNat 16 (n + 1) := by
  rw [h.dreq, BitVec.ofNat_add]
  exact BitVec.sub_sub _ _ _

variable (hn : n < s.dreq.length.toNat)
include hn

theorem Transferred.active : t.dreq.active = true := by
  rw [h.dreq]
  exact decide_eq_true hn

theorem Transferred.backBank_eq : backBank t = backBank s := by
  rw [backBank, backBank, h.bank hn]

variable (hs : FromSdram s)
include hs

theorem Transferred.source : t.dreq.source.toNat = s.dreq.source.toNat + n := by
  have high := hs.high
  rw [h.dreq, BitVec.toNat_add, BitVec.toNat_ofNat]
  omega

/-- The words not yet moved are still in SDRAM. -/
theorem Transferred.word : readWord t .sdram (t.dreq.source.toNat - 0x30000) = wordToMove s n := by
  have low := hs.low
  have index : t.dreq.source.toNat - 0x30000 = s.dreq.source.toNat - 0x30000 + n := by
    rw [h.source hn hs]
    omega
  have kept (off : Nat) : readByte t (MemId.sdram.loc off) = readByte s (MemId.sdram.loc off) :=
    h.others _ fun k _ => sdram_ne_bank s (targetIndex_lt s k) (Nat.le_add_right _ _)
  rw [index, wordToMove, readWord, readWord, kept, kept]

/-- The next step stores word `n` of the transfer and counts. -/
theorem Transferred.step_eq : dreqStep t = dreqAdvance
    { t with mem := (writeWord t (backBank s) (targetIndex s n) .word (wordToMove s n)).mem } := by
  have source := h.source hn hs
  have low := hs.low
  have high := hs.high
  obtain ⟨vram, empty⟩ : t.dreq.vram = true ∧ t.dreq.fifo = [] := by
    rw [h.dreq]
    exact ⟨hs.vram, hs.empty⟩
  rw [dreqStep_fill vram empty (by omega) (by omega), h.backBank_eq hn, h.target, h.word hn hs,
    writeWord_eq]

theorem Transferred.step_mem : (dreqStep t).mem =
    (writeWord t (backBank s) (targetIndex s n) .word (wordToMove s n)).mem := by
  rw [h.step_eq hn hs, dreqAdvance_eq]

theorem Transferred.step_dreq : (dreqStep t).dreq = { s.dreq with
    source := s.dreq.source + BitVec.ofNat 24 (n + 1)
    target := s.dreq.target + BitVec.ofNat 24 (n + 1)
    length := s.dreq.length - BitVec.ofNat 16 (n + 1)
    active := decide (n + 1 < s.dreq.length.toNat)
    dma := decide (n + 1 < s.dreq.length.toNat) } := by
  have next (x : BitVec 24) : x + BitVec.ofNat 24 n + 1 = x + BitVec.ofNat 24 (n + 1) := by
    rw [BitVec.ofNat_add]
    exact BitVec.add_assoc _ _ _
  have more : (decide (n < s.dreq.length.toNat) && s.dreq.length - BitVec.ofNat 16 (n + 1) != 0) =
      decide (n + 1 < s.dreq.length.toNat) := by
    rw [decide_eq_true hn, Bool.true_and, Bool.eq_iff_iff, bne_iff_ne, decide_eq_true_iff]
    exact left_step_ne_zero hn
  rw [h.step_eq hn hs, dreqAdvance_eq]
  dsimp only
  rw [h.length, h.dreq]
  dsimp only
  rw [next, next, more]

/-- While words are left the step moves no bank. -/
theorem Transferred.step_bank (more : n + 1 < s.dreq.length.toNat) : (dreqStep t).fbSel = s.fbSel := by
  have left : t.dreq.length ≠ 1 := by
    rw [Ne, ← last_word_iff, h.length]
    exact (left_step_ne_zero hn).mpr more
  have step := dreqAdvance_more
    (s := { t with mem := (writeWord t (backBank s) (targetIndex s n) .word (wordToMove s n)).mem }) left
  rw [h.step_eq hn hs, step]
  exact h.bank hn

/-- One word more is stored after the next step. -/
theorem Transferred.step : Transferred s (n + 1) (dreqStep t) := by
  have mem := h.step_mem hn hs
  have powerOns := (dreqStep_keeps t).powerOns
  have small := s.dreq.length.isLt
  have distinct (k : Nat) (hk : k < n) : targetIndex s k ≠ targetIndex s n := by
    unfold targetIndex
    omega
  refine ⟨h.step_dreq hn hs, h.step_bank hn hs, fun k hk => ?_, fun x away => ?_⟩
  · refine (readWord_congr mem powerOns _ _).trans ?_
    rcases Nat.lt_succ_iff_lt_or_eq.mp hk with hlt | rfl
    · rw [readWord_writeWord_other _ _ _ _ _ _ (distinct k hlt), h.stored k hlt]
    · rw [readWord_writeWord_same]
      exact joinBytes_hi_lo _
  · obtain ⟨even, odd⟩ := away n (Nat.lt_succ_self n)
    refine (readByte_congr mem powerOns x).trans ?_
    rw [readByte_writeWord_other _ _ _ _ _ _ even odd]
    exact h.others x fun k hk => away k (Nat.lt_succ_of_lt hk)

end

/-- The steps of a transfer, as many as words are left or fewer. -/
theorem transfer_run {s : State} (hs : FromSdram s) (n : Nat) (hn : n ≤ s.dreq.length.toNat) :
    ∃ t, execTimes .dreqStep n s = .next t ∧ Transferred s n t := by
  induction n with
  | zero => exact ⟨s, rfl, .zero hs⟩
  | succ n ih =>
    obtain ⟨t, run, moved⟩ := ih (Nat.le_of_succ_le hn)
    exact ⟨_, execTimes_succ_last run (exec_dreqStep_active (moved.active hn)), (moved.step hn hs).setResult _⟩

/-- Settles O37, by induction on the number of steps: what they have moved is `Transferred`. -/
theorem vramFillTransferMovesEveryWord : Obligations.VramFillTransferMovesEveryWord := by
  intro s n active dma vram empty low high hn left
  obtain ⟨t, run, moved⟩ := transfer_run ⟨active, dma, vram, empty, low, high, left⟩ n hn
  refine ⟨t, run, moved.dreq, moved.stored, moved.others, fun done => exec_dreqStep_idle ?_⟩
  rw [moved.dreq]
  exact decide_eq_false (Nat.not_lt.mpr done.ge)

end Sys2Proof.DreqProofs
end

section
/-! # The family of the IO registers and the mailbox (spec/46_io_mailbox.md)

The edge of `adapterReset` (46_io_mailbox.md R341) and the eight mailbox slots (R345). -/

namespace Sys2Proof.MailboxProofs
open Sys2Proof.Machine Sys2Proof.Laws Sys2Proof.StateProofs Sys2Proof.MemoryProofs

/- Elaborate these proofs one after the other. All at once, while the kernel still checks the text above, they can need
more threads than the check's limit on memory has room for. -/
set_option deprecated.oldSectionVars true

/-! ### The edge of `adapterReset` -/

/-- The IO registers after a write of `ADAPTER` that raises `adapterReset` (46_io_mailbox.md R340). -/
def raisedAdapter (io : Io) (d : Word) : Io :=
  { io with
    adapterEnable := d.getLsbD 0
    adapterReset := true
    resetEnable := d.getLsbD 2
    cartridgeMode := d.getLsbD 3
    romBank := d.extractLsb' 4 2 }

/-- A write that raises `adapterReset` stores the fields and loads M, then S. -/
theorem adapterWrite_edge {l : Lanes} {d : Word} {s : State} (lower : l.l = true)
    (low : s.io.adapterReset = false) (raised : d.getLsbD 1 = true) :
    adapterWrite l d s = loadEntry .s (loadEntry .m { s with io := raisedAdapter s.io d }) := by
  have edge : (!s.io.adapterReset && d.getLsbD 1) = true := by
    rw [low, raised]
    rfl
  unfold adapterWrite
  dsimp only
  rw [if_pos lower, if_pos edge, raised]
  rfl

/-- What a core is loaded with from what its boot ROM reads as (70_reset_and_hazards.md R391). -/
def romRegs (s : State) (c : CoreId) : CoreRegs :=
  engineResetRegs (joinWords (readWord s (bootMem c) 0) (readWord s (bootMem c) 1))

/-- The loads of the two cores do not disturb each other: both take what their boot ROMs hold before, and nothing but
the registers changes. -/
theorem loadBoth_eq (s : State) : loadEntry .s (loadEntry .m s) = { s with
    cores :=
      { m := { s.cores.m with regs := romRegs s .m }
        s := { s.cores.s with regs := romRegs s .s } } } := by
  rw [loadEntry_eq, loadEntry_eq]
  rfl

/-- Settles O26. -/
theorem adapterResetEdgeReloadsBothCores : Obligations.AdapterResetEdgeReloadsBothCores := by
  intro i l d s hm hl low raised
  have reload : regWrite i .adapter l d s = _ :=
    (adapterWrite_edge (lower_of_ne_upper hl) low raised).trans (loadBoth_eq _)
  have write := exec_reg_write .adapter i l d s hm
  rw [reload] at write
  exact write

/-! ### The mailbox -/

/-- One slot replaced. -/
def setSlot (s : State) (n : Fin 8) (v : Word) : State := { s with mailbox := s.mailbox.set n.val v }

theorem setSlot_same (s : State) (n : Fin 8) (v : Word) : (setSlot s n v).mailbox[n] = v :=
  Vector.getElem_set_self n.isLt

theorem setSlot_other (s : State) {n k : Fin 8} (h : n ≠ k) (v : Word) : (setSlot s n v).mailbox[k] = s.mailbox[k] :=
  Vector.getElem_set_ne n.isLt k.isLt (Fin.val_ne_of_ne h)

/-- A read of a slot, by any initiator, returns it on the lanes. -/
theorem exec_mailboxRead {i : Initiator} {s : State} (hm : MayIssue i s) (n : Fin 8) (l : Lanes) :
    exec ((Reg.mbox n).readInstr i l) s = .next { s with result := .bus (l.mask s.mailbox[n]) 0 } :=
  exec_reg_read (.mbox n) i l s hm

/-- A write of a slot, by any initiator, merges its lanes into it. -/
theorem exec_mailboxWrite {i : Initiator} {s : State} (hm : MayIssue i s) (n : Fin 8) (l : Lanes) (d : Word) :
    exec ((Reg.mbox n).writeInstr i l d) s =
      .next { setSlot s n (l.merge s.mailbox[n] d) with result := .bus 0 0 } :=
  exec_reg_write (.mbox n) i l d s hm

/-- A word write at an address of a slot replaces it. -/
theorem busWrite_mailbox (i : Initiator) {a : Long} {n : Fin 8}
    (h : a.toNat / 2 = (0x4000 + (Reg.mbox n).offset.toNat) / 2) (d : Word) (s : State) :
    (busWrite i .word a d s).2 = setSlot s n d := by
  rw [busWrite, targetOf_reg i _ h]
  exact congrArg (setSlot s n) (merge_eq_masks .word _ d)

/-- The two words of a long at slot `k` are the slots `k` and `k + 1`. -/
theorem mailbox_long_words : ∀ k : Fin 7,
    (evenAddr (0x4020 + 2 * BitVec.ofNat 32 k.val)).toNat / 2 =
      (0x4000 + (Reg.mbox k.castSucc).offset.toNat) / 2 ∧
    (evenAddr (0x4020 + 2 * BitVec.ofNat 32 k.val) + 2).toNat / 2 =
      (0x4000 + (Reg.mbox k.succ).offset.toNat) / 2 := by decide

/-- A long written at slot `k` puts its upper half there and its lower half in the next slot (41_bus.md R196). -/
theorem memWrite_long_mailbox (i : Initiator) (k : Fin 7) (v : Long) (s : State) :
    (memWrite i (0x4020 + 2 * BitVec.ofNat 32 k.val) .long v s).2 =
      setSlot (setSlot s k.castSucc (hiWord v)) k.succ (loWord v) := by
  obtain ⟨upper, lower⟩ := mailbox_long_words k
  rw [memWrite_eq_foldl]
  show (busWrite i .word _ (loWord v) (busWrite i .word _ (hiWord v) s).2).2 = _
  rw [busWrite_mailbox i upper, busWrite_mailbox i lower]

/-- Settles O27: the eight rows are the register rows of the slots, and a long is two writes at neighbouring slots. -/
theorem mailboxIsLastWriterWins : Obligations.MailboxIsLastWriterWins := by
  intro i l d s hm
  constructor
  · have slots : ∀ p ∈ (List.finRange 8).map fun n => (n, (Reg.mbox n).readInstr i l, (Reg.mbox n).writeInstr i l d),
        exec p.2.1 s = .next { s with result := .bus (l.mask s.mailbox[p.1]) 0 } ∧
        exec p.2.2 s = .next { s with
          mailbox := s.mailbox.set p.1 (l.merge s.mailbox[p.1] d), result := .bus 0 0 } :=
      List.forall_mem_map.mpr fun n _ => ⟨exec_mailboxRead hm n l, exec_mailboxWrite hm n l d⟩
    exact slots
  · rintro k v t rfl
    rw [memWrite_long_mailbox]
    exact ⟨(setSlot_other _ (Fin.castSucc_lt_succ).ne' _).trans (setSlot_same s _ _), setSlot_same _ _ _, rfl⟩

end Sys2Proof.MailboxProofs
end
